-- ==== Sys2Proof/Word.lean ====
section
/-! DEFINITION. The two word types of the block: bytes and 32-bit queue words (00_scope.md R12: every value is
an unsigned bit vector of a stated width). -/

namespace Sys2Proof

/-- A byte: an operand of CRC7_BYTE, an element of `RESP_BUF`, a byte of the HOST's buffer. -/
abbrev Byte := BitVec 8

/-- A 32-bit word: what `TXQ`, `RXQ` and `CAP` hold, and the operand of CRC16_WORD. -/
abbrev Word := BitVec 32

end Sys2Proof
end

