-- ==== Sys2Proof/Machine/Operands.lean ====
section
/-! DEFINITION. Byte order, symbols, and the assembly and disassembly of packets and words (20_memory.md R51 to R54,
30_encoding.md R71 to R82). `v.extractLsb' lo n` is the spec's slice `v[lo + n - 1 : lo]`, and `++` its concatenation. -/

namespace Sys2Proof.Machine

/-- R12: reverses the four bytes of a word. -/
def bswap32 (w : Word) : Word :=
  w.extractLsb' 0 8 ++ w.extractLsb' 8 8 ++ w.extractLsb' 16 8 ++ w.extractLsb' 24 8

/-- R52, R125: symbol `j` (0..7, in wire order) of a byte-swapped word, `X[31-4j : 28-4j]`. -/
def symbolOf (x : Word) (j : Nat) : BitVec 4 := x.extractLsb' (28 - 4 * j) 4

/-- R11: byte `k` of a 48-bit packet, byte 0 first on the wire. -/
def byte48 (p : BitVec 48) (k : Nat) : Byte := p.extractLsb' (40 - 8 * k) 8

/-- R73: byte `Y[k]` of a 136-bit response, `Y[0]` first on the wire. -/
def byte136 (r : BitVec 136) (k : Nat) : Byte := r.extractLsb' (128 - 8 * k) 8

/-- R150: the first byte of a command packet: start bit 0, direction bit 1, index. -/
def commandByte0 (cmd : BitVec 6) : Byte := 0#1 ++ 1#1 ++ cmd

/-- R150: bytes 0 to 4 of a command packet, which the CRC7 covers (R151). -/
def commandHead (cmd : BitVec 6) (arg : Word) : List Byte :=
  [commandByte0 cmd, arg.extractLsb' 24 8, arg.extractLsb' 16 8, arg.extractLsb' 8 8, arg.extractLsb' 0 8]

/-- R71: a command packet from its fields. -/
def packCmd48 (index : BitVec 6) (arg : Word) (crc : BitVec 7) : BitVec 48 :=
  0#1 ++ 1#1 ++ index ++ arg ++ crc ++ 1#1

/-- R72: a 48-bit response from its fields. -/
def packResp48 (start : BitVec 2) (index : BitVec 6) (payload : Word) (crc : BitVec 7) (endBit : BitVec 1) : BitVec 48 :=
  start ++ index ++ payload ++ crc ++ endBit

/-- R73: a 136-bit response from its fields. -/
def packResp136 (marker : Byte) (payload : BitVec 120) (crc : BitVec 7) (endBit : BitVec 1) : BitVec 136 :=
  marker ++ payload ++ crc ++ endBit

/-- R75: `SEQ_W0` from its fields. -/
def packSeqW0 (len : BitVec 8) (index : BitVec 6) (argHi : BitVec 16) : Word := len ++ 0#1 ++ 1#1 ++ index ++ argHi

/-- R76: `SEQ_W1` from its fields. -/
def packSeqW1 (argLo : BitVec 16) (crc : BitVec 7) (rlen : BitVec 8) : Word := argLo ++ crc ++ 1#1 ++ rlen

/-- R77: `RW0` from its fields. -/
def packRw0 (code : BitVec 8) (payload : BitVec 24) : Word := code ++ payload

/-- R77: `RW1` from its fields. -/
def packRw1 (filler : BitVec 16) (payload : BitVec 8) (crc : BitVec 7) (endBit : BitVec 1) : Word :=
  filler ++ payload ++ crc ++ endBit

/-- R79: `CAPW4` from its fields. -/
def packCapw4 (filler : BitVec 24) (crc : BitVec 7) (endBit : BitVec 1) : Word := filler ++ crc ++ endBit

/-- R152: the packet the two command words carry, `W0[23:0] ‖ W1[31:8]`. -/
def packetOfWords (w0 w1 : Word) : BitVec 48 := w0.extractLsb' 0 24 ++ w1.extractLsb' 8 24

/-- R81: `RSP48 = RW0[31:0] ‖ RW1[15:0]`. -/
def rsp48OfWords (w0 w1 : Word) : BitVec 48 := w0 ++ w1.extractLsb' 0 16

/-- R77: the first reply word of a 48-bit response. -/
def rw0OfRsp48 (r : BitVec 48) : Word := r.extractLsb' 16 32

/-- R77: the second reply word of a 48-bit response, with ENV's filler in bits [31:16]. -/
def rw1OfRsp48 (r : BitVec 48) (filler : BitVec 16) : Word := filler ++ r.extractLsb' 0 16

/-- R82: `RSP136 = CAP[0] ‖ CAP[1] ‖ CAP[2] ‖ CAP[3] ‖ CAP[4][7:0]`. -/
def rsp136OfCap (cap : Vector Word 5) : BitVec 136 :=
  cap[0] ++ cap[1] ++ cap[2] ++ cap[3] ++ (cap[4]).extractLsb' 0 8

/-- R79: the five capture words of a 136-bit response, with ENV's filler in bits [31:8] of the last. -/
def captureWords (r : BitVec 136) (filler : BitVec 24) : List Word :=
  [r.extractLsb' 104 32, r.extractLsb' 72 32, r.extractLsb' 40 32, r.extractLsb' 8 32, filler ++ r.extractLsb' 0 8]

/-- R82, R188: the sixteen buffer bytes of a 136-bit response, `buf[k] = Y[k+1]`. -/
def respBufOfRsp136 (r : BitVec 136) : Vector Byte 16 :=
  #v[byte136 r 1, byte136 r 2, byte136 r 3, byte136 r 4, byte136 r 5, byte136 r 6, byte136 r 7, byte136 r 8,
     byte136 r 9, byte136 r 10, byte136 r 11, byte136 r 12, byte136 r 13, byte136 r 14, byte136 r 15, byte136 r 16]

end Sys2Proof.Machine
end

