-- ==== Sys2Proof/Syntax.lean ====
section
/-! DEFINITION. The instructions: one constructor for each row of spec/opcode_table.json, and the frames in which they
reach the block. The first sixteen rows are the `OPSEL` codes of 30_encoding.md R90 and R91; the other eleven are the wire
and word formats of R71 to R79, whose constructors carry the format's fields (fixed bits are no fields). -/

namespace Sys2Proof

/-- One row of the opcode table, with the operands its ports (R90) or its fields (R71 to R79) carry. -/
inductive Instr where
  /-- `OPSEL` 0x1, R105. -/
  | crc7Clr
  /-- `OPSEL` 0x2, R106. -/
  | crc7Byte (b : Byte)
  /-- `OPSEL` 0x3, R107. -/
  | crc7Rd
  /-- `OPSEL` 0x4, R130. -/
  | crc16Clr
  /-- `OPSEL` 0x5, R131. -/
  | crc16Word (w : Word)
  /-- `OPSEL` 0x6, R132. -/
  | crc16Rd
  /-- `OPSEL` 0x7, R133. -/
  | crc16Cmp (e : BitVec 64)
  /-- `OPSEL` 0x8, R170; `want` says whether a response is expected. -/
  | commandR1 (cmd : BitVec 6) (arg : Word) (want : Bool)
  /-- `OPSEL` 0x9, R172. -/
  | commandR2 (cmd : BitVec 6) (arg : Word)
  /-- `OPSEL` 0xA, R174. -/
  | commandR3 (cmd : BitVec 6) (arg : Word)
  /-- `OPSEL` 0xB, R176. -/
  | cuResult
  /-- `OPSEL` 0xC, R177. -/
  | cuRdbuf (k : BitVec 4)
  /-- `OPSEL` 0x0, reserved, R91. -/
  | reserved0
  /-- `OPSEL` 0xD, reserved, R91. -/
  | reservedD
  /-- `OPSEL` 0xE, reserved, R91. -/
  | reservedE
  /-- `OPSEL` 0xF, reserved, R91. -/
  | reservedF
  /-- R71: the 48-bit command packet on the wire, host to card. -/
  | cmd48 (index : BitVec 6) (arg : Word) (crc : BitVec 7)
  /-- R72: the 48-bit response on the wire, card to host. -/
  | resp48 (start : BitVec 2) (index : BitVec 6) (payload : Word) (crc : BitVec 7) (endBit : BitVec 1)
  /-- R73: the 136-bit response on the wire, card to host. -/
  | resp136 (marker : Byte) (payload : BitVec 120) (crc : BitVec 7) (endBit : BitVec 1)
  /-- R74: the CRC16 trailer on the data lanes; the fields are the four lanes' CRCs, lane 0 first. -/
  | trailer (a b c d : BitVec 16)
  /-- R75: the first command word, block to `TXQ`. -/
  | seqW0 (len : BitVec 8) (index : BitVec 6) (argHi : BitVec 16)
  /-- R76: the second command word, block to `TXQ`. -/
  | seqW1 (argLo : BitVec 16) (crc : BitVec 7) (rlen : BitVec 8)
  /-- R77: the first word of a 48-bit reply. -/
  | rw0 (code : BitVec 8) (payload : BitVec 24)
  /-- R77: the second word of a 48-bit reply; `filler` is ignored by the decoder. -/
  | rw1 (filler : BitVec 16) (payload : BitVec 8) (crc : BitVec 7) (endBit : BitVec 1)
  /-- R78: the completion word of a command with no response. -/
  | rwdone (w : Word)
  /-- R79: one of the capture words 0 to 3 of a 136-bit reply. -/
  | capw03 (y : Word)
  /-- R79: capture word 4; `filler` is ignored by the decoder. -/
  | capw4 (filler : BitVec 24) (crc : BitVec 7) (endBit : BitVec 1)
  deriving DecidableEq, Repr

/-- The HOST's ports (R90: a 4-bit `OPSEL` "with named operand ports beside it"): the values on all of them at once.
An operation reads the ports it names and no other. -/
structure Ports where
  opsel : BitVec 4
  b : Byte := 0
  w : Word := 0
  e : BitVec 64 := 0
  cmd : BitVec 6 := 0
  arg : Word := 0
  want : Bool := false
  k : BitVec 4 := 0
  deriving DecidableEq, Repr

/-- A unit of one of the formats of R70 as it stands where its format says it stands. The format is known from the place
and never inferred from the bits (R94), so each format has its own constructor. -/
inductive Frame where
  /-- The HOST's ports. -/
  | hostOp (p : Ports)
  /-- A packet on the command line, host to card. -/
  | lineCmd48 (v : BitVec 48)
  /-- A 48-bit response on the command line, card to host. -/
  | lineResp48 (v : BitVec 48)
  /-- A 136-bit response on the command line, card to host. -/
  | lineResp136 (v : BitVec 136)
  /-- The sixteen symbols of a trailer in wire order, `T_0` in bits [63:60] (R74). -/
  | laneTrailer (v : BitVec 64)
  /-- The first word of a command, leaving `TXQ`. -/
  | txFirst (w : Word)
  /-- The second word of a command, leaving `TXQ`. -/
  | txSecond (w : Word)
  /-- The first word of a 48-bit reply, entering `RXQ`. -/
  | rxFirst (w : Word)
  /-- The second word of a 48-bit reply, entering `RXQ`. -/
  | rxSecond (w : Word)
  /-- The completion word of a command with no response, entering `RXQ`. -/
  | rxDone (w : Word)
  /-- One of the words 0 to 3 of a 136-bit reply, entering `RXQ` on its way to `CAP`. -/
  | rxCapture (w : Word)
  /-- Word 4 of a 136-bit reply, entering `RXQ` on its way to `CAP`. -/
  | rxCaptureLast (w : Word)
  /-- Bits that stand in no format of R70. -/
  | unformatted (nbits w : Nat)
  deriving DecidableEq, Repr

/-- Why a frame is no instruction. -/
inductive DecodeError where
  /-- A bit the format fixes (start, direction or end bit of R71, R75, R76) has the other value. -/
  | fixedBit
  /-- The bits stand in no format of R70. -/
  | noFormat
  deriving DecidableEq, Repr

end Sys2Proof
end

