-- ==== Sys2Proof/Machine/State.lean ====
section
/-! DEFINITION. The machine's state as plain data: every register and queue of 10_state.md, the HOST's block buffer
(20_memory.md R50), and three fields of the model's own (`hostOut` log 7, `pending` log 1, `draws` log 8); the reasons a step
can stop; and the state after RESET (70_reset_and_hazards.md R271). -/

namespace Sys2Proof.Machine

/-- R24: `CU_STATE`. -/
inductive CuState where
  | idle
  | wait
  deriving DecidableEq, Repr

/-- R26: `CU_SHAPE`, the response shape expected for the command in flight. -/
inductive Shape where
  /-- `SH_NONE`: one completion word awaited. -/
  | none
  /-- `SH_R1`: 48 bits, CRC and index validated. -/
  | r1
  /-- `SH_R2`: 136 bits captured through `CAP`. -/
  | r2
  /-- `SH_R3`: 48 bits, nothing validated. -/
  | r3
  deriving DecidableEq, Repr

/-- R241: the status kinds. The block writes only `ok`, `responseTimeout`, `responseCrc` and `responseCode`; the others
are the surrounding engine's; code 7 is unreachable and has no constructor (93, U26). -/
inductive Status where
  | ok
  | busy
  | responseTimeout
  | responseCrc
  | responseCode
  | dataTimeout
  | dataCrc
  deriving DecidableEq, Repr

/-- R21: the four lane accumulators `CRC16_LANE[0..3]`. -/
structure Lanes where
  l0 : BitVec 16
  l1 : BitVec 16
  l2 : BitVec 16
  l3 : BitVec 16
  deriving DecidableEq, Repr

/-- The value at the HOST's result port (R90, column "result"; R56 for the widths). Model's own field (log 7). -/
inductive HostOut where
  /-- The operation has no result. -/
  | nothing
  /-- CRC7_RD: `CRC7_ACC`. -/
  | crc7 (v : BitVec 8)
  /-- CRC16_RD: `CRC16_PACKED`; also the value of `crc16_4lane_mem` (R63). -/
  | crc16 (v : BitVec 64)
  /-- CRC16_CMP: `CRC16_MATCH`. -/
  | cmpMatch (v : BitVec 1)
  /-- CU_RESULT: `CU_STATE`, `CU_STATUS` and `CU_RESP32` together. -/
  | result (state : BitVec 1) (status : BitVec 3) (resp32 : BitVec 32)
  /-- CU_RDBUF: `RESP_BUF[k]`. -/
  | respByte (v : BitVec 8)
  /-- A TRAILER has reached the HOST: its lane-major value `crc16_from_wire(q)`, to store and to compare (R218; log 18). -/
  | trailer (v : BitVec 64)
  deriving DecidableEq, Repr

/-- The HOST's block buffer (R50, R51): address and byte pairs, addresses strictly rising. An address not listed is no
byte of the buffer and has no value (log 15). -/
abbrev Memory := List Host.Cell

/-- The canonical form: addresses strictly rising. An unlisted address reads as no value, so no entry can equal it. -/
def Memory.wf : Memory → Bool
  | [] => true
  | [_] => true
  | a :: b :: rest => decide (a.1 < b.1) && Memory.wf (b :: rest)

/-- One step some agent takes (30_encoding.md R90: "the complete list of what can happen in the block"), or a write by the
HOST to its own buffer. `pending` lists them in the order in which they happen (log 1). -/
inductive Stimulus where
  /-- A unit of one of the formats of R70 is presented to the block: a HOST operation, or a unit crossing its boundary. -/
  | present (f : Frame)
  /-- CAPTURE takes CAP_MOVE (R179). -/
  | capMove
  /-- CMDU takes CU_COMPLETE (R181). -/
  | cuComplete
  /-- CMDU takes CU_TIMEOUT (R184). -/
  | cuTimeout
  /-- ENV takes ENV_TX_POP (R178). -/
  | envTxPop
  /-- ENV takes ENV_RX_PUSH with a word of its choice (R178). -/
  | envRxPush (w : Word)
  /-- ENV runs the sequencer's program: `SEQ_PC` is written by ENV (10_state.md overview table; log 14). -/
  | envSeqRun (pc : Nat)
  /-- CLOCK takes CLOCK_TICK (R178). -/
  | clockTick
  /-- The RESET event (R270). -/
  | resetEvent
  /-- The HOST evaluates the pseudo-operation `crc16_4lane_mem` on its buffer (R63). -/
  | crc16Mem (addr count : Nat)
  /-- The HOST (or its DMA) writes `n` bytes of its own buffer: `MemWrite(addr, n, v)` of R13. -/
  | bufferWrite (addr n v : Nat)
  deriving DecidableEq, Repr

/-- The steps that are enabled in some states only (R178, R179, R181, R184). -/
inductive AgentStep where
  | capMove
  | cuComplete
  | cuTimeout
  | envTxPop
  | envRxPush
  deriving DecidableEq, Repr

/-- Why the machine stops with a fault. The block itself has none (R240). -/
inductive Fault where
  /-- Raised by `crc16_4lane_mem` when it reads an address that is no byte of the HOST's buffer (log 15). Safe: the
  spec gives such a read no value. -/
  | outsideBuffer (addr : Nat)
  deriving DecidableEq, Repr

/-- Why a request is no step of the machine (R13: `refuse` means the block has no step for this request). Each is safe:
the machine stops where the hardware changes no state. -/
inductive Refusal where
  /-- An instruction that has no meaning yet, by its mnemonic. No arm of `exec` answers so. Safe. -/
  | notModelled (mnemonic : String)
  /-- R91: `OPSEL` 0x0, 0xD, 0xE or 0xF. Raised by the reserved operations. Safe. -/
  | reservedOpsel (code : BitVec 4)
  /-- R175: a COMMAND operation while `CU_STATE = CU_WAIT`. Raised by COMMAND_R1, COMMAND_R2, COMMAND_R3. Safe. -/
  | commandInFlight
  /-- R175: a COMMAND operation with fewer than two free slots in `TXQ`. Raised by the same three. Safe. -/
  | txqNoRoom
  /-- R92: a response bit length outside 0, 48, 136. Raised by SEND_COMMAND; the three COMMAND operations never cause
  it. Safe. -/
  | responseLength (rbits : Nat)
  /-- R178, R179, R181, R184: the step is named and not enabled. Raised by the steps of ENV, CAPTURE and CMDU. Safe. -/
  | notEnabled (step : AgentStep)
  /-- A command word or packet is said to leave `TXQ` and is not what `TXQ` holds at its head. Raised by SEQ_W0, SEQ_W1
  and CMD48. Safe. -/
  | notAtTxqHead
  /-- R55: `crc16_4lane_mem` on an address that is not word-aligned. Safe. -/
  | misaligned (addr : Nat)
  /-- The frame presented is no instruction. Raised by `step`. Safe. -/
  | undecodable (e : DecodeError)
  deriving DecidableEq, Repr

/-- The whole state. The comment of each field names the rule of 10_state.md that gives it. -/
structure State where
  /-- R20: `CRC7_ACC`. -/
  crc7Acc : BitVec 8
  /-- R21: `CRC16_LANE[0..3]`. -/
  crc16Lane : Lanes
  /-- R23: `CRC16_MATCH`. -/
  crc16Match : BitVec 1
  /-- R24: `CU_STATE`. -/
  cuState : CuState
  /-- R25: `CU_CMD`. -/
  cuCmd : BitVec 6
  /-- R26: `CU_SHAPE`. -/
  cuShape : Shape
  /-- R27: `CU_START`. -/
  cuStart : BitVec 32
  /-- R28: `CU_STATUS`. -/
  cuStatus : Status
  /-- R29: `CU_RESP32`. -/
  cuResp32 : BitVec 32
  /-- R30: `RESP_BUF[0..15]`. -/
  respBuf : Vector Byte 16
  /-- R31: `CAP[0..4]`. -/
  cap : Vector Word 5
  /-- R31: `CAP_N`. -/
  capN : BitVec 3
  /-- R31: `CAP_ARMED`. -/
  capArmed : Bool
  /-- R32: `TXQ`, head first. -/
  txq : List Word
  /-- R33: `RXQ`, head first. -/
  rxq : List Word
  /-- R34: `NOW_MS`. -/
  nowMs : BitVec 32
  /-- R35: `SEQ_PC`, opaque. -/
  seqPc : Nat
  /-- R50 (5): the HOST's block buffer. -/
  buffer : Memory
  /-- Model's own (log 7): the value at the HOST's result port. -/
  hostOut : HostOut
  /-- Model's own (log 1): what the agents do next, oldest first. -/
  pending : List Stimulus
  /-- Model's own (log 8): the number of the next free value. -/
  draws : Nat
  deriving DecidableEq, Repr

/-- What an operation or a step answers. -/
abbrev Result := Host.Outcome State Fault Refusal

/-- R271: the state after RESET. `cuCmd`, `cuShape`, `cuStart`, `cuResp32`, `respBuf`, `cap`, `nowMs` and `seqPc` have no
reset value in the spec: zero is a DESIGN CHOICE (log 12), unsafe; so are the model's own three fields. What the HOST's buffer
holds at the start the spec does not say (R50): that no address is a byte of it yet is a DESIGN CHOICE (log 15), safe. -/
def State.reset : State where
  crc7Acc := 0x00#8
  crc16Lane := ⟨0#16, 0#16, 0#16, 0#16⟩
  crc16Match := 0#1
  cuState := .idle
  cuCmd := 0#6
  cuShape := .none
  cuStart := 0#32
  cuStatus := .ok
  cuResp32 := 0#32
  respBuf := Vector.replicate 16 0#8
  cap := Vector.replicate 5 0#32
  capN := 0#3
  capArmed := false
  txq := []
  rxq := []
  nowMs := 0#32
  seqPc := 0
  buffer := []
  hostOut := .nothing
  pending := []
  draws := 0

end Sys2Proof.Machine
end

