-- ==== Sys2Proof/Machine/Checksum.lean ====
section
/-! DEFINITION. The pure functions of the two checksum units: CRC7 (40_crc7.md R100 to R104) and the 4-lane CRC16 with its
two views (41_crc16_4lane.md R120 to R128). The two generator polynomials are the spec's general-knowledge passages K1
and K2 (log 6). -/

namespace Sys2Proof.Machine

/-- R102: one message bit `m` into the 7-bit remainder `c`. -/
def crc7Bit (c : BitVec 7) (m : Bool) : BitVec 7 :=
  bif c.getLsbD 6 ^^ m then (c <<< 1) ^^^ 0x09#7 else c <<< 1

/-- R103: one byte, most significant bit first, into the left-aligned accumulator; bit 0 of the result is 0. -/
def crc7ByteStep (acc b : Byte) : Byte :=
  [7, 6, 5, 4, 3, 2, 1, 0].foldl (fun c i => crc7Bit c (b.getLsbD i)) (acc.extractLsb' 1 7) ++ 0#1

/-- R100: the CRC7 of a byte sequence, left-aligned in 8 bits. -/
def crc7 (bytes : List Byte) : Byte := bytes.foldl crc7ByteStep 0x00#8

/-- R104: entries 0x00 to 0x3F of the table as the spec prints it. -/
def crc7Table0 : List Byte :=
  [0x00, 0x12, 0x24, 0x36, 0x48, 0x5A, 0x6C, 0x7E] ++ [0x90, 0x82, 0xB4, 0xA6, 0xD8, 0xCA, 0xFC, 0xEE] ++
  [0x32, 0x20, 0x16, 0x04, 0x7A, 0x68, 0x5E, 0x4C] ++ [0xA2, 0xB0, 0x86, 0x94, 0xEA, 0xF8, 0xCE, 0xDC] ++
  [0x64, 0x76, 0x40, 0x52, 0x2C, 0x3E, 0x08, 0x1A] ++ [0xF4, 0xE6, 0xD0, 0xC2, 0xBC, 0xAE, 0x98, 0x8A] ++
  [0x56, 0x44, 0x72, 0x60, 0x1E, 0x0C, 0x3A, 0x28] ++ [0xC6, 0xD4, 0xE2, 0xF0, 0x8E, 0x9C, 0xAA, 0xB8]

/-- R104: entries 0x40 to 0x7F. -/
def crc7Table1 : List Byte :=
  [0xC8, 0xDA, 0xEC, 0xFE, 0x80, 0x92, 0xA4, 0xB6] ++ [0x58, 0x4A, 0x7C, 0x6E, 0x10, 0x02, 0x34, 0x26] ++
  [0xFA, 0xE8, 0xDE, 0xCC, 0xB2, 0xA0, 0x96, 0x84] ++ [0x6A, 0x78, 0x4E, 0x5C, 0x22, 0x30, 0x06, 0x14] ++
  [0xAC, 0xBE, 0x88, 0x9A, 0xE4, 0xF6, 0xC0, 0xD2] ++ [0x3C, 0x2E, 0x18, 0x0A, 0x74, 0x66, 0x50, 0x42] ++
  [0x9E, 0x8C, 0xBA, 0xA8, 0xD6, 0xC4, 0xF2, 0xE0] ++ [0x0E, 0x1C, 0x2A, 0x38, 0x46, 0x54, 0x62, 0x70]

/-- R104: entries 0x80 to 0xBF. -/
def crc7Table2 : List Byte :=
  [0x82, 0x90, 0xA6, 0xB4, 0xCA, 0xD8, 0xEE, 0xFC] ++ [0x12, 0x00, 0x36, 0x24, 0x5A, 0x48, 0x7E, 0x6C] ++
  [0xB0, 0xA2, 0x94, 0x86, 0xF8, 0xEA, 0xDC, 0xCE] ++ [0x20, 0x32, 0x04, 0x16, 0x68, 0x7A, 0x4C, 0x5E] ++
  [0xE6, 0xF4, 0xC2, 0xD0, 0xAE, 0xBC, 0x8A, 0x98] ++ [0x76, 0x64, 0x52, 0x40, 0x3E, 0x2C, 0x1A, 0x08] ++
  [0xD4, 0xC6, 0xF0, 0xE2, 0x9C, 0x8E, 0xB8, 0xAA] ++ [0x44, 0x56, 0x60, 0x72, 0x0C, 0x1E, 0x28, 0x3A]

/-- R104: entries 0xC0 to 0xFF. -/
def crc7Table3 : List Byte :=
  [0x4A, 0x58, 0x6E, 0x7C, 0x02, 0x10, 0x26, 0x34] ++ [0xDA, 0xC8, 0xFE, 0xEC, 0x92, 0x80, 0xB6, 0xA4] ++
  [0x78, 0x6A, 0x5C, 0x4E, 0x30, 0x22, 0x14, 0x06] ++ [0xE8, 0xFA, 0xCC, 0xDE, 0xA0, 0xB2, 0x84, 0x96] ++
  [0x2E, 0x3C, 0x0A, 0x18, 0x66, 0x74, 0x42, 0x50] ++ [0xBE, 0xAC, 0x9A, 0x88, 0xF6, 0xE4, 0xD2, 0xC0] ++
  [0x1C, 0x0E, 0x38, 0x2A, 0x54, 0x46, 0x70, 0x62] ++ [0x8C, 0x9E, 0xA8, 0xBA, 0xC4, 0xD6, 0xE0, 0xF2]

/-- R104: `CRC7_TABLE`, the printed 256 entries. -/
def crc7Table : List Byte := crc7Table0 ++ crc7Table1 ++ crc7Table2 ++ crc7Table3

/-- R104: `CRC7_TABLE[x]`. -/
def crc7TableAt (x : Byte) : Byte := crc7Table.getD x.toNat 0x00#8

/-- R122: one lane bit `m` into a 16-bit remainder. -/
def crc16Bit (c : BitVec 16) (m : Bool) : BitVec 16 :=
  bif c.getLsbD 15 ^^ m then (c <<< 1) ^^^ 0x1021#16 else c <<< 1

/-- R123: one symbol into the four lanes; lane `i` takes bit `3 - i` (R121, log 21). -/
def crc16x4Symbol (l : Lanes) (s : BitVec 4) : Lanes :=
  ⟨crc16Bit l.l0 (s.getLsbD 3), crc16Bit l.l1 (s.getLsbD 2), crc16Bit l.l2 (s.getLsbD 1), crc16Bit l.l3 (s.getLsbD 0)⟩

/-- R125: one word, byte-swapped, as eight symbols, into the four lanes. -/
def crc16x4Word (l : Lanes) (w : Word) : Lanes :=
  [0, 1, 2, 3, 4, 5, 6, 7].foldl (fun l j => crc16x4Symbol l (symbolOf (bswap32 w) j)) l

/-- Four zero accumulators. -/
def Lanes.zero : Lanes := ⟨0x0000#16, 0x0000#16, 0x0000#16, 0x0000#16⟩

/-- R22: `CRC16_PACKED`, lane 0 in bits [63:48]. -/
def Lanes.packed (l : Lanes) : BitVec 64 := l.l0 ++ l.l1 ++ l.l2 ++ l.l3

/-- R126: the four lanes of a lane-major value. -/
def Lanes.ofPacked (p : BitVec 64) : Lanes :=
  ⟨p.extractLsb' 48 16, p.extractLsb' 32 16, p.extractLsb' 16 16, p.extractLsb' 0 16⟩

/-- R124: the lanes after the first `count` words, from a zero start. -/
def crc16Lanes (words : List Word) (count : Nat) : Lanes := (words.take count).foldl crc16x4Word Lanes.zero

/-- R124: `crc16_4lane(words, count)`. -/
def crc16FourLane (words : List Word) (count : Nat) : BitVec 64 := (crc16Lanes words count).packed

/-- R74, R126: trailer symbol `T_t`, bit `15 - t` of each lane, lane 0 on top. -/
def trailerSymbol (l : Lanes) (t : Nat) : BitVec 4 :=
  BitVec.ofBool (l.l0.getLsbD (15 - t)) ++ BitVec.ofBool (l.l1.getLsbD (15 - t)) ++
  BitVec.ofBool (l.l2.getLsbD (15 - t)) ++ BitVec.ofBool (l.l3.getLsbD (15 - t))

/-- R126: the lanes in the time order of the sixteen trailer symbols. -/
def Lanes.wire (l : Lanes) : BitVec 64 :=
  trailerSymbol l 0 ++ trailerSymbol l 1 ++ trailerSymbol l 2 ++ trailerSymbol l 3 ++
  trailerSymbol l 4 ++ trailerSymbol l 5 ++ trailerSymbol l 6 ++ trailerSymbol l 7 ++
  trailerSymbol l 8 ++ trailerSymbol l 9 ++ trailerSymbol l 10 ++ trailerSymbol l 11 ++
  trailerSymbol l 12 ++ trailerSymbol l 13 ++ trailerSymbol l 14 ++ trailerSymbol l 15

/-- R126: `crc16_to_wire(p)`. -/
def crc16ToWire (p : BitVec 64) : BitVec 64 := (Lanes.ofPacked p).wire

/-- R127: bit `L_i[15-t] = T_t[3-i]` of a wire-order value. -/
def wireBit (q : BitVec 64) (i t : Nat) : BitVec 1 := BitVec.ofBool (q.getLsbD (60 - 4 * t + (3 - i)))

/-- R127: lane `i` of a wire-order value. -/
def laneOfWire (q : BitVec 64) (i : Nat) : BitVec 16 :=
  wireBit q i 0 ++ wireBit q i 1 ++ wireBit q i 2 ++ wireBit q i 3 ++ wireBit q i 4 ++ wireBit q i 5 ++
  wireBit q i 6 ++ wireBit q i 7 ++ wireBit q i 8 ++ wireBit q i 9 ++ wireBit q i 10 ++ wireBit q i 11 ++
  wireBit q i 12 ++ wireBit q i 13 ++ wireBit q i 14 ++ wireBit q i 15

/-- R127: the four lanes of a wire-order value. -/
def Lanes.ofWire (q : BitVec 64) : Lanes := ⟨laneOfWire q 0, laneOfWire q 1, laneOfWire q 2, laneOfWire q 3⟩

/-- R127: `crc16_from_wire(q)`. -/
def crc16FromWire (q : BitVec 64) : BitVec 64 := (Lanes.ofWire q).packed

/-- R128: one word into the 64-bit wire-order state, the word-parallel form. -/
def crc16x4WordWire (q : BitVec 64) (w : Word) : BitVec 64 :=
  let din : BitVec 32 := bswap32 w
  let dout : BitVec 32 := q.extractLsb' 32 32
  let q : BitVec 64 := q <<< 32
  let dout := dout ^^^ (dout >>> 16)
  let dout := dout ^^^ (din >>> 16)
  let x : BitVec 64 := (dout ^^^ din).setWidth 64
  q ^^^ x ^^^ (x <<< 20) ^^^ (x <<< 48)

/-- R222: the three queue words of a transmitted trailer: the wire view, high word first, and the end marker. Context
(the surrounding engine pushes them). -/
def trailerWords (p : BitVec 64) : List Word :=
  [(crc16ToWire p).extractLsb' 32 32, (crc16ToWire p).extractLsb' 0 32, 0xFFFFFFFF#32]

/-- R218: the lane-major value of a received trailer's two words. Context (the surrounding engine pops them). -/
def expectedOfTrailer (first second : Word) : BitVec 64 := crc16FromWire (first ++ second)

end Sys2Proof.Machine
end

