-- ==== Sys2Proof/WellFormed.lean ====
section
/-! DEFINITION. Which instructions are well-formed. Every value of an operand port is legal (30_encoding.md R92), and what the
card sends may hold any bits (R93); only what the block itself builds has fields with values the spec fixes: the CRC7 of a
command packet (R71), the length code of SEQ_W0 (R75), and the response length code of SEQ_W1 (R76). -/

namespace Sys2Proof

/-- R71: the CRC7 field is that of bytes 0 to 4 of the packet. -/
def cmd48CrcOk (index : BitVec 6) (arg : Word) (crc : BitVec 7) : Bool :=
  crc == (Machine.crc7 (Machine.commandHead index arg)).extractLsb' 1 7

/-- R75, R153: `CMD_LEN_CODE` has two admitted values. -/
def seqW0LenOk (len : BitVec 8) : Bool := len == 48#8 || len == 47#8

/-- R76: `RLEN` is 0, 47 or 135. -/
def seqW1RlenOk (rlen : BitVec 8) : Bool := rlen == 0x00#8 || rlen == 0x2F#8 || rlen == 0x87#8

/-- The checks, row by row. -/
def Instr.wf : Instr → Bool
  | .crc7Clr => true
  | .crc7Byte _ => true
  | .crc7Rd => true
  | .crc16Clr => true
  | .crc16Word _ => true
  | .crc16Rd => true
  | .crc16Cmp _ => true
  | .commandR1 _ _ _ => true
  | .commandR2 _ _ => true
  | .commandR3 _ _ => true
  | .cuResult => true
  | .cuRdbuf _ => true
  | .reserved0 => true
  | .reservedD => true
  | .reservedE => true
  | .reservedF => true
  | .cmd48 index arg crc => cmd48CrcOk index arg crc
  | .resp48 _ _ _ _ _ => true
  | .resp136 _ _ _ _ => true
  | .trailer _ _ _ _ => true
  | .seqW0 len _ _ => seqW0LenOk len
  | .seqW1 _ _ rlen => seqW1RlenOk rlen
  | .rw0 _ _ => true
  | .rw1 _ _ _ _ => true
  | .rwdone _ => true
  | .capw03 _ => true
  | .capw4 _ _ _ => true

end Sys2Proof
end

