-- ==== Sys2Proof/Decode.lean ====
section
/-! DEFINITION. The decoder, total on frames, rejecting by name (30_encoding.md R71 to R79, R90, R91), and the encoder. A
format is known from where its bits stand (R94), so a frame names it; within a format the decoder reads fields and checks the
bits the format fixes. -/

namespace Sys2Proof

open Machine

/-- R90, R91: the operation an `OPSEL` selects, with the operands of the ports it names. `OPSEL` has four bits, so the last
case is 0xF and nothing else. -/
def decodePorts (p : Ports) : Instr :=
  match p.opsel.toNat with
  | 0x0 => .reserved0
  | 0x1 => .crc7Clr
  | 0x2 => .crc7Byte p.b
  | 0x3 => .crc7Rd
  | 0x4 => .crc16Clr
  | 0x5 => .crc16Word p.w
  | 0x6 => .crc16Rd
  | 0x7 => .crc16Cmp p.e
  | 0x8 => .commandR1 p.cmd p.arg p.want
  | 0x9 => .commandR2 p.cmd p.arg
  | 0xA => .commandR3 p.cmd p.arg
  | 0xB => .cuResult
  | 0xC => .cuRdbuf p.k
  | 0xD => .reservedD
  | 0xE => .reservedE
  | _ => .reservedF

/-- R71: the start, direction and end bits of a command packet. -/
def cmd48FixedOk (v : BitVec 48) : Bool :=
  v.extractLsb' 47 1 == 0#1 && v.extractLsb' 46 1 == 1#1 && v.extractLsb' 0 1 == 1#1

/-- R75: the start and direction bits of SEQ_W0. -/
def seqW0FixedOk (w : Word) : Bool := w.extractLsb' 23 1 == 0#1 && w.extractLsb' 22 1 == 1#1

/-- R76: the end bit of SEQ_W1. -/
def seqW1FixedOk (w : Word) : Bool := w.extractLsb' 8 1 == 1#1

/-- The instruction a frame is, or why it is none. -/
def decode : Frame → Except DecodeError Instr
  | .hostOp p => .ok (decodePorts p)
  | .lineCmd48 v =>
    if cmd48FixedOk v then .ok (.cmd48 (v.extractLsb' 40 6) (v.extractLsb' 8 32) (v.extractLsb' 1 7))
    else .error .fixedBit
  | .lineResp48 v =>
    .ok (.resp48 (v.extractLsb' 46 2) (v.extractLsb' 40 6) (v.extractLsb' 8 32) (v.extractLsb' 1 7) (v.extractLsb' 0 1))
  | .lineResp136 v =>
    .ok (.resp136 (v.extractLsb' 128 8) (v.extractLsb' 8 120) (v.extractLsb' 1 7) (v.extractLsb' 0 1))
  | .laneTrailer v => .ok (.trailer (laneOfWire v 0) (laneOfWire v 1) (laneOfWire v 2) (laneOfWire v 3))
  | .txFirst w =>
    if seqW0FixedOk w then .ok (.seqW0 (w.extractLsb' 24 8) (w.extractLsb' 16 6) (w.extractLsb' 0 16))
    else .error .fixedBit
  | .txSecond w =>
    if seqW1FixedOk w then .ok (.seqW1 (w.extractLsb' 16 16) (w.extractLsb' 9 7) (w.extractLsb' 0 8))
    else .error .fixedBit
  | .rxFirst w => .ok (.rw0 (w.extractLsb' 24 8) (w.extractLsb' 0 24))
  | .rxSecond w => .ok (.rw1 (w.extractLsb' 16 16) (w.extractLsb' 8 8) (w.extractLsb' 1 7) (w.extractLsb' 0 1))
  | .rxDone w => .ok (.rwdone w)
  | .rxCapture w => .ok (.capw03 w)
  | .rxCaptureLast w => .ok (.capw4 (w.extractLsb' 8 24) (w.extractLsb' 1 7) (w.extractLsb' 0 1))
  | .unformatted _ _ => .error .noFormat

/-- The frame an instruction is: the ports of R90 with the operand ports it does not name at 0, or the packed format. -/
def encode : Instr → Frame
  | .crc7Clr => .hostOp { opsel := 0x1#4 }
  | .crc7Byte b => .hostOp { opsel := 0x2#4, b := b }
  | .crc7Rd => .hostOp { opsel := 0x3#4 }
  | .crc16Clr => .hostOp { opsel := 0x4#4 }
  | .crc16Word w => .hostOp { opsel := 0x5#4, w := w }
  | .crc16Rd => .hostOp { opsel := 0x6#4 }
  | .crc16Cmp e => .hostOp { opsel := 0x7#4, e := e }
  | .commandR1 cmd arg want => .hostOp { opsel := 0x8#4, cmd := cmd, arg := arg, want := want }
  | .commandR2 cmd arg => .hostOp { opsel := 0x9#4, cmd := cmd, arg := arg }
  | .commandR3 cmd arg => .hostOp { opsel := 0xA#4, cmd := cmd, arg := arg }
  | .cuResult => .hostOp { opsel := 0xB#4 }
  | .cuRdbuf k => .hostOp { opsel := 0xC#4, k := k }
  | .reserved0 => .hostOp { opsel := 0x0#4 }
  | .reservedD => .hostOp { opsel := 0xD#4 }
  | .reservedE => .hostOp { opsel := 0xE#4 }
  | .reservedF => .hostOp { opsel := 0xF#4 }
  | .cmd48 index arg crc => .lineCmd48 (packCmd48 index arg crc)
  | .resp48 start index payload crc endBit => .lineResp48 (packResp48 start index payload crc endBit)
  | .resp136 marker payload crc endBit => .lineResp136 (packResp136 marker payload crc endBit)
  | .trailer a b c d => .laneTrailer (Lanes.wire ⟨a, b, c, d⟩)
  | .seqW0 len index argHi => .txFirst (packSeqW0 len index argHi)
  | .seqW1 argLo crc rlen => .txSecond (packSeqW1 argLo crc rlen)
  | .rw0 code payload => .rxFirst (packRw0 code payload)
  | .rw1 filler payload crc endBit => .rxSecond (packRw1 filler payload crc endBit)
  | .rwdone w => .rxDone w
  | .capw03 y => .rxCapture y
  | .capw4 filler crc endBit => .rxCaptureLast (packCapw4 filler crc endBit)

/-- The frame that the bits of an opcode-table row stand for, by the row's length and, among rows of one length, by the
bits they fix (log 3): 4 bits (one byte) are an `OPSEL` with every operand port 0; 48 bits are CMD48 where its fixed bits
hold, else RESP48; 64 are a TRAILER; 136 are RESP136; 32 are SEQ_W0 where its fixed bits hold, else SEQ_W1 where its end
bit holds, else RW0 (RW0, RW1, RWDONE, CAPW0_3 and CAPW4 have no fixed bits and are told apart by their place alone). -/
def frameOfTable (nbits w : Nat) : Frame :=
  if 2 ^ nbits ≤ w then .unformatted nbits w
  else if nbits = 4 ∨ nbits = 8 then
    if w < 16 then .hostOp { opsel := BitVec.ofNat 4 w } else .unformatted nbits w
  else if nbits = 32 then
    if seqW0FixedOk (BitVec.ofNat 32 w) then .txFirst (BitVec.ofNat 32 w)
    else if seqW1FixedOk (BitVec.ofNat 32 w) then .txSecond (BitVec.ofNat 32 w)
    else .rxFirst (BitVec.ofNat 32 w)
  else if nbits = 48 then
    if cmd48FixedOk (BitVec.ofNat 48 w) then .lineCmd48 (BitVec.ofNat 48 w) else .lineResp48 (BitVec.ofNat 48 w)
  else if nbits = 64 then .laneTrailer (BitVec.ofNat 64 w)
  else if nbits = 136 then .lineResp136 (BitVec.ofNat 136 w)
  else .unformatted nbits w

/-- The instruction the decoder reads from a row's bits. -/
def decodeTableWord (nbits w : Nat) : Option Instr :=
  match decode (frameOfTable nbits w) with
  | .ok i => some i
  | .error _ => none

end Sys2Proof
end

