-- ==== Sys2Proof/Config.lean ====
section
/-! DEFINITION. The parameters of 00_scope.md R9 and R10, fixed for one machine, and the free values: what the spec
calls `any`. An `opaque` constant has no body, so a claim that mentions one holds whatever its value is. -/

namespace Sys2Proof.Config

/-- R9: `RESP_TIMEOUT_MS`, the reply deadline in counts of `NOW_MS`. -/
def respTimeoutMs : Nat := 2

/-- R9: `R2_CAPTURE_WORDS`, the words of a captured 136-bit response. -/
def r2CaptureWords : Nat := 5

/-- R9: `APP_CMD_INDEX`, the command index exempt from the echo check (R187). -/
def appCmdIndex : BitVec 6 := 41#6

/-- R10, D25: `TXQ_DEPTH` in words. DESIGN CHOICE (log 5): the spec's default of a parameter, unsafe. -/
def txqDepth : Nat := 4

/-- R10, D25: `RXQ_DEPTH` in words. DESIGN CHOICE (log 5): the spec's default of a parameter, unsafe. -/
def rxqDepth : Nat := 4

/-- R10, R188, D19: `R2_MARKER`. PRESUMED (log 6): the spec has it from general knowledge, unsafe. -/
def r2Marker : Byte := 0x3F#8

/-- R153, D12: which of its two admitted values `CMD_LEN_CODE` has. OPEN in the spec, so open here (log 4). -/
opaque cmdLenIs47 : Bool

/-- R10, R153: `CMD_LEN_CODE`, 48 (the document's literal) or 47 (length minus one). -/
def cmdLenCode : BitVec 8 := bif cmdLenIs47 then 47#8 else 48#8

/-- R10, D31: `CMD_CLK_ENTRY`, the sequencer address a timeout resets `SEQ_PC` to. OPEN, opaque (log 4). -/
opaque cmdClkEntry : Nat

/-- The free 32-bit values: one fresh value for each draw number (log 8). -/
opaque freeWord : Nat → Word

/-- The free bytes: one fresh value for each draw number (log 8). -/
opaque freeByte : Nat → Byte

/-- What CU_RESULT shows as `CU_RESP32` in `CU_WAIT` (R176: it "means nothing"; log 8). -/
opaque waitResp32 : Nat → Word

/-- What CU_RDBUF returns in `CU_WAIT` (R177: the buffer's content is `any`; log 8). -/
opaque waitRespByte : Nat → BitVec 4 → Byte

end Sys2Proof.Config
end

