-- ==== Sys2Proof/Machine/Flags.lean ====
section
/-! DEFINITION. Codes of the control registers, the checks that decide a status or a flag, and the two predicates CMDU
waits on (10_state.md R23 to R28, 40_crc7.md R110, 43_response_decoder.md R180 to R183, 60_exceptions.md R241). -/

namespace Sys2Proof.Machine

/-- R24: the bit `CU_STATE` is. -/
def CuState.code : CuState → BitVec 1
  | .idle => 0
  | .wait => 1

/-- R26: the two bits `CU_SHAPE` is. -/
def Shape.code : Shape → BitVec 2
  | .none => 0
  | .r1 => 1
  | .r2 => 2
  | .r3 => 3

/-- R26: the shape two bits stand for. -/
def Shape.ofCode (c : BitVec 2) : Shape :=
  if c = 0 then .none else if c = 1 then .r1 else if c = 2 then .r2 else .r3

/-- R241: the code numbers of the status kinds. -/
def Status.code : Status → BitVec 3
  | .ok => 0
  | .busy => 1
  | .responseTimeout => 2
  | .responseCrc => 3
  | .responseCode => 4
  | .dataTimeout => 5
  | .dataCrc => 6

/-- R241: the kinds the block itself writes to `CU_STATUS` (codes 0, 2, 3 and 4). -/
def Status.writtenByBlock : Status → Bool
  | .ok | .responseTimeout | .responseCrc | .responseCode => true
  | .busy | .dataTimeout | .dataCrc => false

/-- R110: a computed CRC7 against a received CRC byte, whose end bit is masked out. -/
def crc7Agrees (bytes : List Byte) (received : Byte) : Bool := crc7 bytes == (received &&& 0xFE#8)

/-- R133: the verdict of CRC16_CMP, over all 64 bits. -/
def crc16Verdict (e : BitVec 64) (l : Lanes) : BitVec 1 := if e = l.packed then 1 else 0

/-- R180: the words that make a reply are there. -/
def replyReady (s : State) : Bool :=
  match s.cuShape with
  | .none => decide (1 ≤ s.rxq.length)
  | .r1 => decide (2 ≤ s.rxq.length)
  | .r2 => decide (s.capN.toNat = Config.r2CaptureWords)
  | .r3 => decide (2 ≤ s.rxq.length)

/-- R182, R201: milliseconds since issue, modulo 2^32. -/
def elapsed (s : State) : BitVec 32 := s.nowMs - s.cuStart

/-- R182: more than `RESP_TIMEOUT_MS` counts have passed. -/
def deadlinePassed (s : State) : Bool := decide (Config.respTimeoutMs < (elapsed s).toNat)

/-- R181: the condition under which CU_COMPLETE is enabled. -/
def completeEnabled (s : State) : Bool := s.cuState == .wait && replyReady s

/-- R183, R184: the condition under which CU_TIMEOUT is enabled. -/
def timeoutEnabled (s : State) : Bool := s.cuState == .wait && !replyReady s && deadlinePassed s

/-- R179: the condition under which CAP_MOVE is enabled. -/
def captureEnabled (s : State) : Bool :=
  s.capArmed && decide (s.capN.toNat < Config.r2CaptureWords) && decide (0 < s.rxq.length)

end Sys2Proof.Machine
end

