-- ==== Sys2Proof/Machine/Decoders.lean ====
section
/-! DEFINITION. The three response decoders, pure functions (43_response_decoder.md R186 to R191). In a result, `none`
stands where the spec says `any`. -/

namespace Sys2Proof.Machine

/-- R81: the five bytes of a 48-bit response that its CRC7 covers. -/
def rsp48Head (r : BitVec 48) : List Byte := [byte48 r 0, byte48 r 1, byte48 r 2, byte48 r 3, byte48 r 4]

/-- R186, R187: the reply code against the issued index, all eight bits, index 41 exempt. -/
def echoAgrees (cmd : BitVec 6) (r : BitVec 48) : Bool :=
  byte48 r 0 == cmd.setWidth 8 || cmd == Config.appCmdIndex

/-- R186: `decode_R1(cmd, RSP48)`: the CRC first, the reply code second. -/
def decodeR1 (cmd : BitVec 6) (r : BitVec 48) : Status × Option Word :=
  if crc7Agrees (rsp48Head r) (byte48 r 5) then
    if echoAgrees cmd r then (.ok, some (r.extractLsb' 8 32)) else (.responseCode, none)
  else (.responseCrc, none)

/-- R190: `decode_R3(RSP48)`: the payload, nothing checked. -/
def decodeR3 (r : BitVec 48) : Word := r.extractLsb' 8 32

/-- R188: the fifteen bytes of a 136-bit response that its CRC7 covers, `Y[1..15]`. -/
def rsp136Payload (r : BitVec 136) : List Byte :=
  [byte136 r 1, byte136 r 2, byte136 r 3, byte136 r 4, byte136 r 5, byte136 r 6, byte136 r 7, byte136 r 8,
   byte136 r 9, byte136 r 10, byte136 r 11, byte136 r 12, byte136 r 13, byte136 r 14, byte136 r 15]

/-- R188: `decode_R2(RSP136)`: unpack, CRC, marker; the buffer comes with every status. -/
def decodeR2 (r : BitVec 136) : Status × Vector Byte 16 :=
  if crc7Agrees (rsp136Payload r) (byte136 r 16) then
    if byte136 r 0 = Config.r2Marker then (.ok, respBufOfRsp136 r) else (.responseCode, respBufOfRsp136 r)
  else (.responseCrc, respBufOfRsp136 r)

end Sys2Proof.Machine
end

