-- ==== Sys2Proof/Machine/Framer.lean ====
section
/-! DEFINITION. The command framer's pure function (42_command_framer.md R150 to R153). -/

namespace Sys2Proof.Machine

/-- R150: the sixth byte of a command packet, CRC7 in [7:1] and the end bit 1. -/
def commandByte5 (cmd : BitVec 6) (arg : Word) : Byte := crc7 (commandHead cmd arg) ||| 0x01#8

/-- R80, R150: the command packet `P`, `b0 ‖ b1 ‖ b2 ‖ b3 ‖ b4 ‖ b5`. -/
def commandPacket (cmd : BitVec 6) (arg : Word) : BitVec 48 := commandByte0 cmd ++ arg ++ commandByte5 cmd arg

/-- R80, R92: `RLEN`, for the three response bit lengths that are admitted. -/
def rlenOf (rbits : Nat) : Option (BitVec 8) :=
  if rbits = 0 then some 0x00#8
  else if rbits = 48 ∨ rbits = 136 then some (BitVec.ofNat 8 (rbits - 1))
  else none

/-- R150: `frame_command(cmd, arg, rbits)`; `none` where the request is refused (R92). -/
def frameCommand (cmd : BitVec 6) (arg : Word) (rbits : Nat) : Option (Word × Word) :=
  match rlenOf rbits with
  | some rlen =>
    some (Config.cmdLenCode ++ (commandPacket cmd arg).extractLsb' 24 24,
          (commandPacket cmd arg).extractLsb' 0 24 ++ rlen)
  | none => none

end Sys2Proof.Machine
end

