-- ==== Sys2Proof/Machine/Ops.lean ====
section
/-! DEFINITION. The shared operations: the HOST's buffer, the two queues, `raise` (the block's only exception mechanism,
00_scope.md R13; nothing returns from it, 60_exceptions.md R252), the values the spec calls `any`, and SEND_COMMAND. -/

namespace Sys2Proof.Machine

/-- One operation after another: the second runs where the first has a next state. -/
def Result.andThen (r : Result) (f : State → Result) : Result :=
  match r with
  | .next s => f s
  | .fault e => .fault e
  | .refused e => .refused e

/-! ### The HOST's block buffer (R13, R50, R51) -/

/-- The byte of the buffer at an address; `none` where the address is no byte of the buffer (log 15). -/
def Memory.readByte : Memory → Nat → Option Byte
  | [], _ => none
  | c :: rest, a => if c.1 = a then some c.2 else Memory.readByte rest a

/-- Writes one byte of the buffer, keeping the addresses strictly rising. -/
def Memory.writeByte : Memory → Nat → Byte → Memory
  | [], a, b => [(a, b)]
  | c :: rest, a, b =>
    if a < c.1 then (a, b) :: c :: rest
    else if a = c.1 then (a, b) :: rest
    else c :: Memory.writeByte rest a b

/-- R13: `MemRead(addr, n)`, little-endian: the byte at `addr` is bits [7:0]. The error is the first address that is no byte
of the buffer. -/
def Memory.read (m : Memory) (addr : Nat) : Nat → Except Nat Nat
  | 0 => .ok 0
  | n + 1 =>
    match m.readByte addr, Memory.read m (addr + 1) n with
    | some b, .ok v => .ok (b.toNat + 256 * v)
    | some _, .error a => .error a
    | none, _ => .error addr

/-- R13: `MemWrite(addr, n, v)`, the inverse of `MemRead`. -/
def Memory.write (m : Memory) (addr : Nat) : Nat → Nat → Memory
  | 0, _ => m
  | n + 1, v => Memory.write (m.writeByte addr (BitVec.ofNat 8 v)) (addr + 1) n (v / 256)

/-- R63: the words `MemRead(addr + 4k, 4)`, k = 0..count-1. -/
def Memory.readWords (m : Memory) (addr : Nat) : Nat → Except Nat (List Word)
  | 0 => .ok []
  | n + 1 =>
    match m.read addr 4, Memory.readWords m (addr + 4) n with
    | .ok w, .ok ws => .ok (BitVec.ofNat 32 w :: ws)
    | .ok _, .error a => .error a
    | .error a, _ => .error a

/-! ### Updates that several operations share -/

/-- The HOST's result port shows `o`. -/
def State.answer (s : State) (o : HostOut) : State := { s with hostOut := o }

/-- R13, R28: `raise`: the command in flight ends with this status. It is how every ending is written, `OK` too. -/
def raise (st : Status) (s : State) : State := { s with cuStatus := st, cuState := .idle }

/-- R29, R251: `CU_RESP32` becomes `any`: a free value (log 8). -/
def State.anyResp32 (s : State) : State :=
  { s with cuResp32 := Config.freeWord s.draws, draws := s.draws + 1 }

/-- Sixteen free bytes from draw number `d` on (log 8). -/
def freeBuf (d : Nat) : Vector Byte 16 :=
  #v[Config.freeByte d, Config.freeByte (d + 1), Config.freeByte (d + 2), Config.freeByte (d + 3),
     Config.freeByte (d + 4), Config.freeByte (d + 5), Config.freeByte (d + 6), Config.freeByte (d + 7),
     Config.freeByte (d + 8), Config.freeByte (d + 9), Config.freeByte (d + 10), Config.freeByte (d + 11),
     Config.freeByte (d + 12), Config.freeByte (d + 13), Config.freeByte (d + 14), Config.freeByte (d + 15)]

/-- R30, R251: `RESP_BUF` becomes `any`: sixteen free values (log 8). -/
def State.anyRespBuf (s : State) : State :=
  { s with respBuf := freeBuf s.draws, draws := s.draws + 16 }

/-- R29: `CU_RESP32` takes a decoder's payload, or becomes `any` where the decoder gives none. -/
def State.writeResp32 (s : State) : Option Word → State
  | some w => { s with cuResp32 := w }
  | none => s.anyResp32

/-! ### Queues (R32, R33, R58, R59, R178) -/

/-- R178: ENV_TX_POP: the word at the head of `TXQ` goes to the sequencer, out of the block. -/
def envTxPop (s : State) : Result :=
  match s.txq with
  | _ :: rest => .next { s with txq := rest }
  | [] => .refused (.notEnabled .envTxPop)

/-- R178: ENV_RX_PUSH: a word at the tail of `RXQ`; ENV has no such step while `RXQ` is full (R59, log 16). -/
def envRxPush (w : Word) (s : State) : Result :=
  if s.rxq.length < Config.rxqDepth then .next { s with rxq := s.rxq ++ [w] }
  else .refused (.notEnabled .envRxPush)

/-- R179: what CAP_MOVE does where it is enabled. -/
def captureWord (s : State) : State :=
  { s with cap := s.cap.setIfInBounds s.capN.toNat (s.rxq.headD 0), capN := s.capN + 1, rxq := s.rxq.drop 1 }

/-! ### SEND_COMMAND (42_command_framer.md R156) -/

/-- R156: clear `RXQ`, push the two command words, latch `CU_START`, as one transition (R57, R157); refused outside its
precondition (R92, R175). -/
def sendCommand (cmd : BitVec 6) (arg : Word) (rbits : Nat) (s : State) : Except Refusal State :=
  if s.cuState = .wait then .error .commandInFlight
  else if Config.txqDepth < s.txq.length + 2 then .error .txqNoRoom
  else
    match frameCommand cmd arg rbits with
    | none => .error (.responseLength rbits)
    | some (w0, w1) => .ok { s with rxq := [], txq := s.txq ++ [w0, w1], cuStart := s.nowMs }

/-- R170, R172, R174: what the three COMMAND operations do after SEND_COMMAND, in the same transition. -/
def issueCommand (cmd : BitVec 6) (arg : Word) (rbits : Nat) (shape : Shape) (s : State) : Result :=
  match sendCommand cmd arg rbits s with
  | .error r => .refused r
  | .ok t => .next { t with cuCmd := cmd, cuShape := shape, cuStatus := .ok, cuState := .wait, hostOut := .nothing }

end Sys2Proof.Machine
end

