-- ==== Sys2Proof/Machine/Command.lean ====
section
/-! DEFINITION. The HOST's operations on CMDU: command issue and reading the result (43_response_decoder.md R170 to R177).
That init is done (R273) and that the DMA channel is free for COMMAND_R2 (R288) are standing premises (log 10, log 11). -/

namespace Sys2Proof.Machine

/-- R170: COMMAND_R1 cmd, arg, want. -/
def execCommandR1 (cmd : BitVec 6) (arg : Word) (want : Bool) (s : State) : Result :=
  issueCommand cmd arg (bif want then 48 else 0) (bif want then .r1 else .none) s

/-- R172: COMMAND_R2 cmd, arg: the capture is armed in the same transition, before the words are pushed. -/
def execCommandR2 (cmd : BitVec 6) (arg : Word) (s : State) : Result :=
  issueCommand cmd arg 136 .r2 { s with capN := 0, capArmed := true }

/-- R174: COMMAND_R3 cmd, arg. -/
def execCommandR3 (cmd : BitVec 6) (arg : Word) (s : State) : Result := issueCommand cmd arg 48 .r3 s

/-- R176: what CU_RESULT shows as `CU_RESP32`; in `CU_WAIT` it "means nothing": a free value (log 8). -/
def shownResp32 (s : State) : BitVec 32 :=
  match s.cuState with
  | .idle => s.cuResp32
  | .wait => Config.waitResp32 s.draws

/-- R176: CU_RESULT. -/
def execCuResult (s : State) : Result :=
  .next (s.answer (.result s.cuState.code s.cuStatus.code (shownResp32 s)))

/-- R177: what CU_RDBUF returns; in `CU_WAIT` "the buffer's content is `any`": a free value (93, U8; log 8). -/
def shownRespByte (k : BitVec 4) (s : State) : Byte :=
  match s.cuState with
  | .idle => s.respBuf[k.toNat]'(by have := k.isLt; omega)
  | .wait => Config.waitRespByte s.draws k

/-- R177: CU_RDBUF k. -/
def execCuRdbuf (k : BitVec 4) (s : State) : Result := .next (s.answer (.respByte (shownRespByte k s)))

end Sys2Proof.Machine
end

