-- ==== Sys2Proof/Machine/Crc16.lean ====
section
/-! DEFINITION. The operations of CRC16U (41_crc16_4lane.md R130 to R133), the TRAILER row (R74 with R218), and the
pseudo-operation `crc16_4lane_mem` (20_memory.md R63). -/

namespace Sys2Proof.Machine

/-- R130: CRC16_CLR; `CRC16_MATCH` is not changed. -/
def execCrc16Clr (s : State) : Result := .next { s with crc16Lane := Lanes.zero, hostOut := .nothing }

/-- R131: CRC16_WORD w. -/
def execCrc16Word (w : Word) (s : State) : Result :=
  .next { s with crc16Lane := crc16x4Word s.crc16Lane w, hostOut := .nothing }

/-- R132: CRC16_RD. -/
def execCrc16Rd (s : State) : Result := .next (s.answer (.crc16 s.crc16Lane.packed))

/-- R133: CRC16_CMP e, the one writer of `CRC16_MATCH` (R23). -/
def execCrc16Cmp (e : BitVec 64) (s : State) : Result :=
  .next { s with crc16Match := crc16Verdict e s.crc16Lane, hostOut := .cmpMatch (crc16Verdict e s.crc16Lane) }

/-- R74, R218: a received TRAILER, its symbols already taken apart into lanes (`crc16_from_wire`, in `decode`), reaches the
HOST as its lane-major value. No register of the block changes (R23): the HOST compares the value by a CRC16_CMP of its own,
when it will (R216, R218; log 18). -/
def execTrailer (a b c d : BitVec 16) (s : State) : Result := .next (s.answer (.trailer (Lanes.packed ⟨a, b, c, d⟩)))

/-- R63, R55: `crc16_4lane_mem(addr, count)` on the HOST's buffer: refused where `addr` is not word-aligned; it reads
`4 * count` bytes and writes nothing but the result port (log 20). -/
def crc16FourLaneMem (addr count : Nat) (s : State) : Result :=
  if addr % 4 = 0 then
    match s.buffer.readWords addr count with
    | .ok ws => .next (s.answer (.crc16 (crc16FourLane ws count)))
    | .error a => .fault (.outsideBuffer a)
  else .refused (.misaligned addr)

end Sys2Proof.Machine
end

