-- ==== Sys2Proof/Machine/Crc7.lean ====
section
/-! DEFINITION. The operations of CRC7U (40_crc7.md R105 to R107). Each is allowed in any `CU_STATE`. -/

namespace Sys2Proof.Machine

/-- R105: CRC7_CLR. -/
def execCrc7Clr (s : State) : Result := .next { s with crc7Acc := 0x00#8, hostOut := .nothing }

/-- R106: CRC7_BYTE b. -/
def execCrc7Byte (b : Byte) (s : State) : Result :=
  .next { s with crc7Acc := crc7ByteStep s.crc7Acc b, hostOut := .nothing }

/-- R107: CRC7_RD. -/
def execCrc7Rd (s : State) : Result := .next (s.answer (.crc7 s.crc7Acc))

end Sys2Proof.Machine
end

