-- ==== Sys2Proof/Machine/Reserved.lean ====
section
/-! DEFINITION. The four reserved `OPSEL` codes (30_encoding.md R91): "A request with one of them is refused: the block
changes no state and returns nothing." -/

namespace Sys2Proof.Machine

/-- R91: `OPSEL` 0x0. -/
def execReserved0 (_s : State) : Result := .refused (.reservedOpsel 0x0#4)

/-- R91: `OPSEL` 0xD. -/
def execReservedD (_s : State) : Result := .refused (.reservedOpsel 0xD#4)

/-- R91: `OPSEL` 0xE. -/
def execReservedE (_s : State) : Result := .refused (.reservedOpsel 0xE#4)

/-- R91: `OPSEL` 0xF. -/
def execReservedF (_s : State) : Result := .refused (.reservedOpsel 0xF#4)

end Sys2Proof.Machine
end

