-- ==== Sys2Proof/Machine/Agents.lean ====
section
/-! DEFINITION. The steps of the block's own agents CMDU and CAPTURE, of CLOCK, and the RESET event
(43_response_decoder.md R178 to R191, 70_reset_and_hazards.md R270, R271), and whose turn it is when nothing is scheduled. -/

namespace Sys2Proof.Machine

/-- R179: CAP_MOVE. -/
def capMove (s : State) : Result :=
  bif captureEnabled s then .next (captureWord s) else .refused (.notEnabled .capMove)

/-- R181, `SH_NONE`: the completion word is popped and discarded; both outputs are `any` (R191, R251). -/
def completeNone (s : State) : State := raise .ok ({ s with rxq := s.rxq.drop 1 }.anyResp32.anyRespBuf)

/-- R81: the 48-bit response in the two words at the head of `RXQ`. -/
def rsp48AtHead (s : State) : BitVec 48 := rsp48OfWords (s.rxq.getD 0 0) (s.rxq.getD 1 0)

/-- R181, `SH_R1`: two words popped, decoded by `decode_R1` with `CU_CMD`; `RESP_BUF` is `any` (R251). -/
def completeR1 (s : State) : State :=
  raise (decodeR1 s.cuCmd (rsp48AtHead s)).1
    (({ s with rxq := s.rxq.drop 2 }.writeResp32 (decodeR1 s.cuCmd (rsp48AtHead s)).2).anyRespBuf)

/-- R181, `SH_R3`: two words popped, the payload returned, always `OK`; `RESP_BUF` is `any` (R251). -/
def completeR3 (s : State) : State :=
  raise .ok ({ s with rxq := s.rxq.drop 2, cuResp32 := decodeR3 (rsp48AtHead s) }.anyRespBuf)

/-- R181, `SH_R2`: the captured response decoded by `decode_R2`, the buffer written whatever the status, the capture
disarmed; `CU_RESP32` is `any` (R251). -/
def completeR2 (s : State) : State :=
  raise (decodeR2 (rsp136OfCap s.cap)).1
    ({ s with respBuf := (decodeR2 (rsp136OfCap s.cap)).2, capArmed := false }.anyResp32)

/-- R181: CU_COMPLETE. -/
def cuComplete (s : State) : Result :=
  bif completeEnabled s then
    match s.cuShape with
    | .none => .next (completeNone s)
    | .r1 => .next (completeR1 s)
    | .r2 => .next (completeR2 s)
    | .r3 => .next (completeR3 s)
  else .refused (.notEnabled .cuComplete)

/-- R184: what CU_TIMEOUT does where it is enabled: abort the capture, clear `RXQ`, reset `SEQ_PC`. -/
def recoverFromTimeout (s : State) : State :=
  raise .responseTimeout
    ({ s with capArmed := false, rxq := [], seqPc := Config.cmdClkEntry }.anyResp32.anyRespBuf)

/-- R184: CU_TIMEOUT. -/
def cuTimeout (s : State) : Result :=
  bif timeoutEnabled s then .next (recoverFromTimeout s) else .refused (.notEnabled .cuTimeout)

/-- R178: CLOCK_TICK, always enabled. -/
def clockTick (s : State) : Result := .next { s with nowMs := s.nowMs + 1 }

/-- 10_state.md overview table, R35: ENV runs the sequencer's program and so writes `SEQ_PC` (log 14). -/
def envSeqRun (pc : Nat) (s : State) : Result := .next { s with seqPc := pc }

/-- The HOST writes its own buffer (R13, log 15). -/
def bufferWrite (addr n v : Nat) (s : State) : Result := .next { s with buffer := s.buffer.write addr n v }

/-- R270, R271: the RESET event at any time. What R271 leaves unspecified becomes a free value; `SEQ_PC` is external and
not set, the HOST's buffer is outside the block (log 13). -/
def resetEvent (s : State) : Result :=
  .next { State.reset with
    cuCmd := (Config.freeWord (s.draws + 1)).extractLsb' 0 6
    cuShape := Shape.ofCode ((Config.freeWord (s.draws + 2)).extractLsb' 0 2)
    cuStart := Config.freeWord (s.draws + 3)
    cuResp32 := Config.freeWord s.draws
    respBuf := freeBuf s.draws
    cap := #v[Config.freeWord (s.draws + 4), Config.freeWord (s.draws + 5), Config.freeWord (s.draws + 6),
      Config.freeWord (s.draws + 7), Config.freeWord (s.draws + 8)]
    nowMs := Config.freeWord (s.draws + 9)
    seqPc := s.seqPc
    buffer := s.buffer
    pending := s.pending
    draws := s.draws + 16 }

/-- Whose turn it is when `pending` lists nothing (log 1): CMDU's closing step if one is enabled (R297), else CAP_MOVE if
it is enabled, else CLOCK_TICK, which R178 takes again and again. -/
def ownTurn (s : State) : Result :=
  bif completeEnabled s then cuComplete s
  else bif timeoutEnabled s then cuTimeout s
  else bif captureEnabled s then capMove s
  else clockTick s

end Sys2Proof.Machine
end

