-- ==== Sys2Proof/Machine/Wire.lean ====
section
/-! DEFINITION. The format rows of the command line and of the two queues (30_encoding.md R71 to R73, R75 to R79), each as
the step in which a unit of that format crosses the block's boundary (log 2): a word or packet for the card leaves `TXQ` by
ENV_TX_POP, a word or response from the card enters `RXQ` by ENV_RX_PUSH. They are no HOST operations and leave the HOST's
result port as it is. -/

namespace Sys2Proof.Machine

/-- ENV_TX_POP of this very word (R178): refused where `TXQ` does not hold it at its head. -/
def takeWord (w : Word) (s : State) : Result :=
  match s.txq.head? with
  | none => .refused (.notEnabled .envTxPop)
  | some h => if h = w then envTxPop s else .refused .notAtTxqHead

/-- R75: SEQ_W0 leaves `TXQ`. -/
def execSeqW0 (len : BitVec 8) (index : BitVec 6) (argHi : BitVec 16) (s : State) : Result :=
  takeWord (packSeqW0 len index argHi) s

/-- R76: SEQ_W1 leaves `TXQ`. -/
def execSeqW1 (argLo : BitVec 16) (crc : BitVec 7) (rlen : BitVec 8) (s : State) : Result :=
  takeWord (packSeqW1 argLo crc rlen) s

/-- R71, R152: CMD48 goes out on the wire: ENV takes the two words that carry it, `P = W0[23:0] ‖ W1[31:8]`. -/
def execCmd48 (index : BitVec 6) (arg : Word) (crc : BitVec 7) (s : State) : Result :=
  match s.txq with
  | w0 :: w1 :: _ =>
    if packetOfWords w0 w1 = packCmd48 index arg crc then (envTxPop s).andThen envTxPop
    else .refused .notAtTxqHead
  | _ => .refused (.notEnabled .envTxPop)

/-- R77: RW0 enters `RXQ`. -/
def execRw0 (code : BitVec 8) (payload : BitVec 24) (s : State) : Result := envRxPush (packRw0 code payload) s

/-- R77: RW1 enters `RXQ`. -/
def execRw1 (filler : BitVec 16) (payload : BitVec 8) (crc : BitVec 7) (endBit : BitVec 1) (s : State) : Result :=
  envRxPush (packRw1 filler payload crc endBit) s

/-- R78: RWDONE enters `RXQ`. -/
def execRwdone (w : Word) (s : State) : Result := envRxPush w s

/-- R79: one of CAPW0 to CAPW3 enters `RXQ`; CAP_MOVE takes it on to `CAP`. -/
def execCapw03 (y : Word) (s : State) : Result := envRxPush y s

/-- R79: CAPW4 enters `RXQ`; CAP_MOVE takes it on to `CAP`. -/
def execCapw4 (filler : BitVec 24) (crc : BitVec 7) (endBit : BitVec 1) (s : State) : Result :=
  envRxPush (packCapw4 filler crc endBit) s

/-- R72, R77: RESP48 arrives: ENV pushes its two words; the filler of the second is a free value (log 19). -/
def execResp48 (start : BitVec 2) (index : BitVec 6) (payload : Word) (crc : BitVec 7) (endBit : BitVec 1) (s : State) :
    Result :=
  (envRxPush (rw0OfRsp48 (packResp48 start index payload crc endBit)) s).andThen fun t =>
    envRxPush (rw1OfRsp48 (packResp48 start index payload crc endBit) ((Config.freeWord t.draws).extractLsb' 0 16))
      { t with draws := t.draws + 1 }

/-- CAPTURE takes its step if it has one. -/
def captureIfEnabled (s : State) : Result := bif captureEnabled s then capMove s else .next s

/-- R279: ENV pushes one word and CAPTURE, if it can, moves a word on before the next push. -/
def pushThenCapture (w : Word) (s : State) : Result := (envRxPush w s).andThen captureIfEnabled

/-- Several words in turn, CAPTURE draining the queue. -/
def pushAll : List Word → State → Result
  | [], s => .next s
  | w :: ws, s => (pushThenCapture w s).andThen (pushAll ws)

/-- R73, R79: RESP136 arrives: ENV pushes its five words, CAPTURE draining the queue between them; the filler of the last
is a free value (log 19). With no capture armed the fifth word finds `RXQ` full, where ENV has no step (log 16). -/
def execResp136 (marker : Byte) (payload : BitVec 120) (crc : BitVec 7) (endBit : BitVec 1) (s : State) : Result :=
  pushAll (captureWords (packResp136 marker payload crc endBit) ((Config.freeWord s.draws).extractLsb' 0 24))
    { s with draws := s.draws + 1 }

end Sys2Proof.Machine
end

