-- ==== Sys2Proof/Machine/Dispatch.lean ====
section
/-! DEFINITION. One arm for each row of the opcode table. -/

namespace Sys2Proof.Machine

def exec (i : Instr) (s : State) : Host.Outcome State Fault Refusal :=
  match i with
  | .crc7Clr => Sys2Proof.Machine.execCrc7Clr s
  | .crc7Byte b => Sys2Proof.Machine.execCrc7Byte b s
  | .crc7Rd => Sys2Proof.Machine.execCrc7Rd s
  | .crc16Clr => Sys2Proof.Machine.execCrc16Clr s
  | .crc16Word w => Sys2Proof.Machine.execCrc16Word w s
  | .crc16Rd => Sys2Proof.Machine.execCrc16Rd s
  | .crc16Cmp e => Sys2Proof.Machine.execCrc16Cmp e s
  | .commandR1 cmd arg want => Sys2Proof.Machine.execCommandR1 cmd arg want s
  | .commandR2 cmd arg => Sys2Proof.Machine.execCommandR2 cmd arg s
  | .commandR3 cmd arg => Sys2Proof.Machine.execCommandR3 cmd arg s
  | .cuResult => Sys2Proof.Machine.execCuResult s
  | .cuRdbuf k => Sys2Proof.Machine.execCuRdbuf k s
  | .reserved0 => Sys2Proof.Machine.execReserved0 s
  | .reservedD => Sys2Proof.Machine.execReservedD s
  | .reservedE => Sys2Proof.Machine.execReservedE s
  | .reservedF => Sys2Proof.Machine.execReservedF s
  | .cmd48 index arg crc => Sys2Proof.Machine.execCmd48 index arg crc s
  | .resp48 start index payload crc endBit => Sys2Proof.Machine.execResp48 start index payload crc endBit s
  | .resp136 marker payload crc endBit => Sys2Proof.Machine.execResp136 marker payload crc endBit s
  | .trailer a b c d => Sys2Proof.Machine.execTrailer a b c d s
  | .seqW0 len index argHi => Sys2Proof.Machine.execSeqW0 len index argHi s
  | .seqW1 argLo crc rlen => Sys2Proof.Machine.execSeqW1 argLo crc rlen s
  | .rw0 code payload => Sys2Proof.Machine.execRw0 code payload s
  | .rw1 filler payload crc endBit => Sys2Proof.Machine.execRw1 filler payload crc endBit s
  | .rwdone w => Sys2Proof.Machine.execRwdone w s
  | .capw03 y => Sys2Proof.Machine.execCapw03 y s
  | .capw4 filler crc endBit => Sys2Proof.Machine.execCapw4 filler crc endBit s

end Sys2Proof.Machine
end

