-- ==== Sys2Proof/Machine/Stimuli.lean ====
section
/-! DEFINITION. What one stimulus does, and how a frame comes to stand where the next step takes it from. -/

namespace Sys2Proof.Machine

/-- A frame presented to the block is decoded and run, or refused. -/
def presentFrame (f : Frame) (s : State) : Result :=
  match decode f with
  | .ok i => exec i s
  | .error e => .refused (.undecodable e)

/-- One stimulus: one atomic transition (20_memory.md R57). -/
def perform (a : Stimulus) (s : State) : Result :=
  match a with
  | .present f => presentFrame f s
  | .capMove => capMove s
  | .cuComplete => cuComplete s
  | .cuTimeout => cuTimeout s
  | .envTxPop => envTxPop s
  | .envRxPush w => envRxPush w s
  | .envSeqRun pc => envSeqRun pc s
  | .clockTick => clockTick s
  | .resetEvent => resetEvent s
  | .crc16Mem addr count => crc16FourLaneMem addr count s
  | .bufferWrite addr n v => bufferWrite addr n v s

/-- Puts a frame where its unit is taken from: a word or packet for the card at the head of `TXQ`; for a 136-bit response the
COMMAND_R2 it answers, with the capture armed. Of the two words that carry a packet the length codes are no part of it (R152);
every other frame needs no place but the stimulus that presents it
(log 3). -/
def placeFrame (f : Frame) (s : State) : State :=
  match f with
  | .txFirst w => { s with txq := w :: s.txq }
  | .txSecond w => { s with txq := w :: s.txq }
  | .lineCmd48 v =>
    { s with txq := (48#8 ++ v.extractLsb' 24 24) :: (v.extractLsb' 0 24 ++ 0x00#8) :: s.txq }
  | .lineResp136 _ =>
    { s with cuState := .wait, cuShape := .r2, cuStatus := .ok, capArmed := true, capN := 0, rxq := [] }
  | _ => s

/-- Presents a frame before everything that is pending. -/
def scheduleFirst (f : Frame) (s : State) : State :=
  { placeFrame f s with pending := .present f :: (placeFrame f s).pending }

end Sys2Proof.Machine
end

