-- ==== Sys2Proof/Machine/Step.lean ====
section
/-! DEFINITION. One step: the oldest pending stimulus, or, where nothing is pending, the turn of the block's own agents and
the clock (log 1). -/

namespace Sys2Proof.Machine

/-- One transition of the machine. -/
def step (s : State) : Host.Outcome State Fault Refusal :=
  match s.pending with
  | [] => ownTurn s
  | a :: rest => perform a { s with pending := rest }

/-- `s` with the instruction of a row's bits where the next step takes it from. -/
def State.withFetchWord (s : State) (nbits w : Nat) : State := scheduleFirst (frameOfTable nbits w) s

end Sys2Proof.Machine
end

