-- ==== Sys2Proof/Safety.lean ====
section
/-! DEFINITION. The invariants of 10_state.md R42, with the canonical form of the HOST's buffer, and the runs in whose terms
claims about several operations are made. -/

namespace Sys2Proof.Machine

/-- R42: the invariants that hold in every reachable state, the rule of each being R20, R31, R31, R32 and R33, R28; then what
R241 says of the codes the block writes, and the converse of R31 that the rules of issue and ending give. -/
structure State.Inv (s : State) : Prop where
  /-- R20: `CRC7_ACC[0] = 0`. -/
  accBit0 : s.crc7Acc.getLsbD 0 = false
  /-- R31: `CAP_N <= 5`. -/
  capCount : s.capN.toNat ≤ 5
  /-- R31: the capture runs only while an R2 command waits. -/
  capArmed : s.capArmed = true → s.cuState = .wait ∧ s.cuShape = .r2
  /-- R33: `RXQ` holds at most `RXQ_DEPTH` words. -/
  rxqRoom : s.rxq.length ≤ Config.rxqDepth
  /-- R32: `TXQ` holds at most `TXQ_DEPTH` words. -/
  txqRoom : s.txq.length ≤ Config.txqDepth
  /-- R28: in `CU_WAIT` the status is `OK`. -/
  waitOk : s.cuState = .wait → s.cuStatus = .ok
  /-- R172, R181, R184: while an R2 command waits its capture is armed. -/
  waitArmed : s.cuState = .wait → s.cuShape = .r2 → s.capArmed = true
  /-- R241: the block writes only codes 0, 2, 3 and 4. -/
  statusKind : s.cuStatus.writtenByBlock = true
  /-- The HOST's buffer keeps its canonical form. -/
  bufferWf : s.buffer.wf = true

/-- R251: what every ending of a command leaves as it was: `CU_CMD`, `CU_SHAPE`, `CU_START`, `CAP`, `CAP_N`, `CRC7_ACC`,
`CRC16_LANE`, `CRC16_MATCH` and `TXQ`; with them the clock, the HOST's buffer, the result port and what is pending. -/
structure EndingKeeps (s t : State) : Prop where
  cuCmd : t.cuCmd = s.cuCmd
  cuShape : t.cuShape = s.cuShape
  cuStart : t.cuStart = s.cuStart
  cap : t.cap = s.cap
  capN : t.capN = s.capN
  crc7Acc : t.crc7Acc = s.crc7Acc
  crc16Lane : t.crc16Lane = s.crc16Lane
  crc16Match : t.crc16Match = s.crc16Match
  txq : t.txq = s.txq
  nowMs : t.nowMs = s.nowMs
  buffer : t.buffer = s.buffer
  hostOut : t.hostOut = s.hostOut
  pending : t.pending = s.pending

/-- The instructions that are COMMAND operations. -/
def Instr.isCommand : Instr → Bool
  | .commandR1 _ _ _ | .commandR2 _ _ | .commandR3 _ _ => true
  | _ => false

/-- The format rows that are steps of ENV: a unit leaves `TXQ` or enters `RXQ` (log 2). -/
def Instr.isEnvRow : Instr → Bool
  | .cmd48 _ _ _ | .seqW0 _ _ _ | .seqW1 _ _ _ => true
  | .resp48 _ _ _ _ _ | .resp136 _ _ _ _ | .rw0 _ _ | .rw1 _ _ _ _ | .rwdone _ | .capw03 _ | .capw4 _ _ _ => true
  | _ => false

/-- The instruction a stimulus presents, if it presents one. -/
def Stimulus.instr? : Stimulus → Option Instr
  | .present f => (decode f).toOption
  | _ => none

/-- The outcome with its next state changed by `f`. -/
def Result.map (f : State → State) (r : Result) : Result := r.andThen fun t => .next (f t)

/-- Several instructions in turn, each run where the one before has a next state. -/
def execAll : List Instr → State → Result
  | [], s => .next s
  | i :: is, s => Result.andThen (exec i s) (execAll is)

end Sys2Proof.Machine
end

