-- ==== Sys2Proof/Certificates/Slice0/Obligations.lean ====
section
/-! DEFINITION. The statements about the model, one definition each. Where a statement rests on a choice of the model's own
or of the spec's, its docstring names the log entry or the decision. `hostOut` is the result column of 30_encoding.md R90 ("none"
is `nothing`); that State holds it until the next HOST operation is the model's own (log 7). -/

open Sys2Proof Sys2Proof.Machine

/-! ### Reset and invariants -/

/-- 70_reset_and_hazards.md R271: every register for which the table gives a value has it after RESET. The registers it
calls unspecified are not in the statement (log 12). -/
def Obligations.ResetGivesTheListedValues : Prop :=
  State.reset.crc7Acc = 0x00#8 ∧ State.reset.crc16Lane.packed = 0#64 ∧ State.reset.crc16Match = 0#1 ∧
  State.reset.cuState = .idle ∧ State.reset.cuStatus = .ok ∧ State.reset.capN = 0#3 ∧ State.reset.capArmed = false ∧
  State.reset.txq = [] ∧ State.reset.rxq = []

/-- R270, R271: the RESET event is one step that any state can take; it gives the listed values, and leaves `SEQ_PC` and the
HOST's buffer. What the table calls unspecified may hold anything (log 13). -/
def Obligations.ResetEventGivesTheListedValues : Prop :=
  ∀ s : State, ∃ t, perform .resetEvent s = .next t ∧
    t.crc7Acc = 0x00#8 ∧ t.crc16Lane.packed = 0#64 ∧ t.crc16Match = 0#1 ∧ t.cuState = .idle ∧ t.cuStatus = .ok ∧
    t.capN = 0#3 ∧ t.capArmed = false ∧ t.txq = [] ∧ t.rxq = [] ∧
    t.seqPc = s.seqPc ∧ t.buffer = s.buffer ∧ t.pending = s.pending

/-- R42: the invariants hold at reset. -/
def Obligations.ResetMeetsTheInvariants : Prop := State.reset.Inv

/-- R42, with the further clauses that `State.Inv` names: every step, of any agent, keeps the invariants, from every state
that meets them. -/
def Obligations.EveryStepKeepsTheInvariants : Prop :=
  ∀ s t : State, s.Inv → step s = .next t → t.Inv

/-! ### Encoding -/

/-- The decoder reads back every instruction the encoder writes, with every operand at every value. -/
def Obligations.DecodeInvertsEncode : Prop :=
  ∀ i : Instr, decode (encode i) = .ok i

/-- R70 to R79: in a wire or word format every bit is a field or fixed, so a frame that decodes is the encoding of what it
decodes to. -/
def Obligations.EncodeInvertsDecodeOnFormats : Prop :=
  ∀ (f : Frame) (i : Instr), (∀ p, f ≠ .hostOp p) → decode f = .ok i → encode i = f

/-- R90, R91: the sixteen values of `OPSEL`, operand ports at 0; R71, R75, R76, R77: words written out from the spec's
encodings (vectors F2, F4, program P1) decode to what they stand for. -/
def Obligations.WrittenOutWordsDecode : Prop :=
  (List.range 16).map (decodeTableWord 8) =
    [some .reserved0, some .crc7Clr, some (.crc7Byte 0), some .crc7Rd, some .crc16Clr, some (.crc16Word 0),
     some .crc16Rd, some (.crc16Cmp 0), some (.commandR1 0 0 false), some (.commandR2 0 0), some (.commandR3 0 0),
     some .cuResult, some (.cuRdbuf 0), some .reservedD, some .reservedE, some .reservedF] ∧
  decode (.lineCmd48 0b01_001000_00000000000000000000000110101010_1000011_1#48) = .ok (.cmd48 8 0x1AA 0x43) ∧
  decode (.txFirst 0b00110000_0_1_101001_0100000000010000#32) = .ok (.seqW0 48 41 0x4010) ∧
  decode (.txSecond 0b0000000110101010_1000011_1_00101111#32) = .ok (.seqW1 0x01AA 0x43 0x2F) ∧
  decode (.rxSecond 0b1111111111111111_10101010_0001001_1#32) = .ok (.rw1 0xFFFF 0xAA 0x09 1)

/-- R71, R75, R76 fix the bits; that a command packet or command word with another value in one of them is refused is the
model's choice (log 3): it is accepted exactly where its fixed bits hold. -/
def Obligations.FixedBitsDecideAcceptance : Prop :=
  (∀ v : BitVec 48, (∃ i, decode (.lineCmd48 v) = .ok i) ↔
    v.getLsbD 47 = false ∧ v.getLsbD 46 = true ∧ v.getLsbD 0 = true) ∧
  (∀ w : Word, (∃ i, decode (.txFirst w) = .ok i) ↔ w.getLsbD 23 = false ∧ w.getLsbD 22 = true) ∧
  (∀ w : Word, (∃ i, decode (.txSecond w) = .ok i) ↔ w.getLsbD 8 = true)

/-! ### Steps -/

/-- A step takes the oldest pending frame, and where it decodes to an instruction, runs that instruction on the state without
it; a frame that is no instruction is refused by name; any other pending stimulus is performed likewise (log 1, log 3). -/
def Obligations.StepRunsTheDecodedInstruction : Prop :=
  ∀ (s : State) (rest : List Stimulus),
    (∀ f i, s.pending = .present f :: rest → decode f = .ok i → step s = exec i { s with pending := rest }) ∧
    (∀ f e, s.pending = .present f :: rest → decode f = .error e → step s = .refused (.undecodable e)) ∧
    ∀ a, s.pending = a :: rest → step s = perform a { s with pending := rest }

/-- An instruction placed by `withFetchWord` is the one the next step runs, and what was pending stays pending (log 3). -/
def Obligations.PlacedWordRunsNext : Prop :=
  ∀ (s : State) (nbits w : Nat) (i : Instr), decodeTableWord nbits w = some i →
    step (s.withFetchWord nbits w) = exec i (placeFrame (frameOfTable nbits w) s) ∧
    (placeFrame (frameOfTable nbits w) s).pending = s.pending

/-! ### CRC7U -/

/-- R105, R107: CRC7_CLR and CRC7_RD, their codes, their whole effect, in any `CU_STATE`; a second CRC7_RD returns the same
value; after CRC7_CLR, CRC7_RD returns 0x00. -/
def Obligations.Crc7ClrAndRd : Prop :=
  (∀ p : Ports, p.opsel = 0x1 → decodePorts p = .crc7Clr) ∧ (∀ p : Ports, p.opsel = 0x3 → decodePorts p = .crc7Rd) ∧
  ∀ s : State, exec .crc7Clr s = .next { s with crc7Acc := 0x00, hostOut := .nothing } ∧
    exec .crc7Rd s = .next { s with hostOut := .crc7 s.crc7Acc } ∧
    execAll [.crc7Rd, .crc7Rd] s = exec .crc7Rd s ∧
    execAll [.crc7Clr, .crc7Rd] s = .next { s with crc7Acc := 0x00, hostOut := .crc7 0x00 }

/-- R106: CRC7_BYTE, its code, its whole effect, and the equal table form from every accumulator with bit 0 clear. The
generator in the byte step is the spec's K1 (log 6). -/
def Obligations.Crc7ByteStepsTheAccumulator : Prop :=
  (∀ p : Ports, p.opsel = 0x2 → decodePorts p = .crc7Byte p.b) ∧
  ∀ (s : State) (b : Byte),
    exec (.crc7Byte b) s = .next { s with crc7Acc := crc7ByteStep s.crc7Acc b, hostOut := .nothing } ∧
    (s.crc7Acc.getLsbD 0 = false →
      exec (.crc7Byte b) s = .next { s with crc7Acc := crc7TableAt (s.crc7Acc ^^^ b), hostOut := .nothing })

/-- R108: the sequence CRC7_CLR, CRC7_BYTE .., CRC7_RD returns `crc7` of the bytes and leaves everything else. -/
def Obligations.Crc7SequenceReturnsTheChecksum : Prop :=
  ∀ (s : State) (bytes : List Byte),
    execAll ([.crc7Clr] ++ bytes.map .crc7Byte ++ [.crc7Rd]) s =
      .next { s with crc7Acc := crc7 bytes, hostOut := .crc7 (crc7 bytes) }

/-- R111 (b): linearity over sequences of equal length. -/
def Obligations.Crc7IsLinear : Prop :=
  ∀ a b : List Byte, a.length = b.length → crc7 (List.zipWith (· ^^^ ·) a b) = crc7 a ^^^ crc7 b

/-- R111 (a), (c), (e): leading zeros, the two self-checks, bit 0. -/
def Obligations.Crc7SelfCheck : Prop :=
  ∀ bytes : List Byte,
    crc7 (0x00 :: bytes) = crc7 bytes ∧ crc7 (bytes ++ [crc7 bytes]) = 0x00 ∧
    crc7 (bytes ++ [crc7 bytes ||| 0x01]) = 0x12 ∧ (crc7 bytes).getLsbD 0 = false

/-- R111 (d): a change of any one bit changes the CRC7. -/
def Obligations.Crc7SeesEverySingleBit : Prop :=
  ∀ (bytes : List Byte) (k i : Nat) (hk : k < bytes.length), i < 8 →
    crc7 (bytes.set k (bytes[k] ^^^ (1#8 <<< i))) ≠ crc7 bytes

/-! ### CRC16U -/

/-- R130, R132: CRC16_CLR and CRC16_RD, their codes, their whole effect; CLR does not change `CRC16_MATCH`, RD does not clear
the lanes. -/
def Obligations.Crc16ClrAndRd : Prop :=
  (∀ p : Ports, p.opsel = 0x4 → decodePorts p = .crc16Clr) ∧ (∀ p : Ports, p.opsel = 0x6 → decodePorts p = .crc16Rd) ∧
  ∀ s : State, exec .crc16Clr s = .next { s with crc16Lane := ⟨0, 0, 0, 0⟩, hostOut := .nothing } ∧
    exec .crc16Rd s = .next { s with
      hostOut := .crc16 (s.crc16Lane.l0 ++ s.crc16Lane.l1 ++ s.crc16Lane.l2 ++ s.crc16Lane.l3) } ∧
    execAll [.crc16Clr, .crc16Rd] s = .next { s with crc16Lane := ⟨0, 0, 0, 0⟩, hostOut := .crc16 0 }

/-- R125: lane `i` after one word: the bits `X[31-i], X[27-i], .., X[3-i]` of the swapped word, in that order. -/
def Obligations.Crc16WordAdvancesEachLane : Prop :=
  (∀ p : Ports, p.opsel = 0x5 → decodePorts p = .crc16Word p.w) ∧
  ∀ (s : State) (w : Word),
    exec (.crc16Word w) s = .next { s with
      crc16Lane :=
        ⟨[31, 27, 23, 19, 15, 11, 7, 3].foldl (fun c j => crc16Bit c ((bswap32 w).getLsbD j)) s.crc16Lane.l0,
         [30, 26, 22, 18, 14, 10, 6, 2].foldl (fun c j => crc16Bit c ((bswap32 w).getLsbD j)) s.crc16Lane.l1,
         [29, 25, 21, 17, 13, 9, 5, 1].foldl (fun c j => crc16Bit c ((bswap32 w).getLsbD j)) s.crc16Lane.l2,
         [28, 24, 20, 16, 12, 8, 4, 0].foldl (fun c j => crc16Bit c ((bswap32 w).getLsbD j)) s.crc16Lane.l3⟩,
      hostOut := .nothing }

/-- R133: CRC16_CMP, its code, the flag and the result, over all 64 bits; the lanes are not changed. -/
def Obligations.Crc16CmpSetsMatch : Prop :=
  (∀ p : Ports, p.opsel = 0x7 → decodePorts p = .crc16Cmp p.e) ∧
  ∀ (s : State) (e : BitVec 64),
    (e = s.crc16Lane.packed →
      exec (.crc16Cmp e) s = .next { s with crc16Match := 1, hostOut := .cmpMatch 1 }) ∧
    (e ≠ s.crc16Lane.packed →
      exec (.crc16Cmp e) s = .next { s with crc16Match := 0, hostOut := .cmpMatch 0 })

/-- R134: the sequence CRC16_CLR, CRC16_WORD .., CRC16_RD returns `crc16_4lane` of the words and leaves everything else. -/
def Obligations.Crc16SequenceReturnsTheChecksum : Prop :=
  ∀ (s : State) (words : List Word), ∃ l : Lanes, l.packed = crc16FourLane words words.length ∧
    execAll ([.crc16Clr] ++ words.map .crc16Word ++ [.crc16Rd]) s =
      .next { s with crc16Lane := l, hostOut := .crc16 (crc16FourLane words words.length) }

/-- R127: the two views are each other's inverse; with R218 and R222 (decision D28), the two checksum words of a transmitted
trailer give back the value they carry. -/
def Obligations.Crc16WireViewsAreInverse : Prop :=
  ∀ v : BitVec 64, crc16FromWire (crc16ToWire v) = v ∧ crc16ToWire (crc16FromWire v) = v ∧
    ∃ first second : Word, trailerWords v = [first, second, 0xFFFFFFFF#32] ∧ expectedOfTrailer first second = v

/-- R128: the word-parallel form computes the wire view of the 4-lane checksum, for every sequence of words. The spec
checked this by computation and does not prove it. -/
def Obligations.Crc16WordParallelFormRefines : Prop :=
  ∀ words : List Word,
    words.foldl crc16x4WordWire 0#64 = crc16ToWire (crc16FourLane words words.length)

/-- R137 (a), (b), (f): zero input, linearity, leading zero words. -/
def Obligations.Crc16IsLinear : Prop :=
  (∀ n : Nat, crc16FourLane (List.replicate n 0) n = 0) ∧
  (∀ a b : List Word, a.length = b.length →
    crc16FourLane (List.zipWith (· ^^^ ·) a b) a.length = crc16FourLane a a.length ^^^ crc16FourLane b b.length) ∧
  ∀ (n : Nat) (words : List Word),
    crc16FourLane (List.replicate n 0 ++ words) (n + words.length) = crc16FourLane words words.length

/-- R137 (c), R202: a lane's accumulator after a word depends on its own accumulator and its own bits and on nothing
else. -/
def Obligations.Crc16LanesAreIndependent : Prop :=
  ∀ (l l' : Lanes) (w w' : Word),
    (l.l0 = l'.l0 → (∀ m < 8, (bswap32 w).getLsbD (4 * m + 3) = (bswap32 w').getLsbD (4 * m + 3)) →
      (crc16x4Word l w).l0 = (crc16x4Word l' w').l0) ∧
    (l.l1 = l'.l1 → (∀ m < 8, (bswap32 w).getLsbD (4 * m + 2) = (bswap32 w').getLsbD (4 * m + 2)) →
      (crc16x4Word l w).l1 = (crc16x4Word l' w').l1) ∧
    (l.l2 = l'.l2 → (∀ m < 8, (bswap32 w).getLsbD (4 * m + 1) = (bswap32 w').getLsbD (4 * m + 1)) →
      (crc16x4Word l w).l2 = (crc16x4Word l' w').l2) ∧
    (l.l3 = l'.l3 → (∀ m < 8, (bswap32 w).getLsbD (4 * m) = (bswap32 w').getLsbD (4 * m)) →
      (crc16x4Word l w).l3 = (crc16x4Word l' w').l3)

/-- R218 (decision D28; log 18): a received trailer reaches the HOST as its lane-major value and changes no register of the
block; the CRC16_CMP of that value says whether it holds the unit's lanes; and the trailer that carries the unit's own wire view
delivers the value that matches. -/
def Obligations.TrailerIsCompared : Prop :=
  ∀ (s : State) (a b c d : BitVec 16),
    exec (.trailer a b c d) s = .next { s with hostOut := .trailer (a ++ b ++ c ++ d) } ∧
    (∃ t, execAll [.trailer a b c d, .crc16Cmp (a ++ b ++ c ++ d)] s = .next t ∧
      (t.crc16Match = 1 ↔ ⟨a, b, c, d⟩ = s.crc16Lane) ∧
      t = { s with crc16Match := t.crc16Match, hostOut := .cmpMatch t.crc16Match }) ∧
    presentFrame (.laneTrailer (crc16ToWire s.crc16Lane.packed)) s =
      .next { s with hostOut := .trailer s.crc16Lane.packed }

/-- R55, R63: `crc16_4lane_mem`: refused where misaligned; else the checksum of the little-endian words of the buffer,
nothing written; a fault at an address that is no byte of the buffer (log 15). -/
def Obligations.Crc16MemReadsTheBuffer : Prop :=
  ∀ (s : State) (addr count : Nat),
    (addr % 4 ≠ 0 → perform (.crc16Mem addr count) s = .refused (.misaligned addr)) ∧
    (∀ ws, addr % 4 = 0 → s.buffer.readWords addr count = .ok ws →
      perform (.crc16Mem addr count) s = .next { s with hostOut := .crc16 (crc16FourLane ws count) } ∧
      ws.length = count ∧
      ∀ k (hk : k < ws.length), s.buffer.read (addr + 4 * k) 4 = .ok (ws[k]).toNat) ∧
    (∀ a, addr % 4 = 0 → s.buffer.readWords addr count = .error a →
      perform (.crc16Mem addr count) s = .fault (.outsideBuffer a) ∧ s.buffer.readByte a = none)

/-- R13: the HOST's write to its buffer is one step that changes the buffer and nothing else (log 15); `MemRead` after `MemWrite`
gives the value written, cut to its bytes, and every other byte reads as before. -/
def Obligations.BufferReadsWhatWasWritten : Prop :=
  (∀ (s : State) (addr n v : Nat),
    perform (.bufferWrite addr n v) s = .next { s with buffer := s.buffer.write addr n v }) ∧
  ∀ (m : Memory) (addr n v : Nat),
    (m.write addr n v).read addr n = .ok (v % 256 ^ n) ∧
    ∀ a, (a < addr ∨ addr + n ≤ a) → (m.write addr n v).readByte a = m.readByte a

/-! ### The command framer -/

/-- R71, R75, R76, R152, R153, R159 (a), (b), (c): the fixed bits, the fields and the self-check of every command packet, and
where each field of it stands in the two command words; the length code is 48 or 47 (log 4). -/
def Obligations.CommandWordsHoldTheFields : Prop :=
  (Config.cmdLenCode = 48#8 ∨ Config.cmdLenCode = 47#8) ∧
  ∀ (cmd : BitVec 6) (arg : Word),
    commandPacket cmd arg = packCmd48 cmd arg ((crc7 (commandHead cmd arg)).extractLsb' 1 7) ∧
    (commandPacket cmd arg).extractLsb' 46 2 = 0b01#2 ∧ (commandPacket cmd arg).getLsbD 0 = true ∧
    crc7 ((List.range 6).map (byte48 (commandPacket cmd arg))) = 0x12#8 ∧
    ∀ (rbits : Nat) (w0 w1 : Word), frameCommand cmd arg rbits = some (w0, w1) →
      w0.extractLsb' 24 8 = Config.cmdLenCode ∧ w0.extractLsb' 22 2 = 0b01#2 ∧ w0.extractLsb' 16 6 = cmd ∧
      w0.extractLsb' 0 16 ++ w1.extractLsb' 16 16 = arg ∧ w1.getLsbD 8 = true ∧
      packetOfWords w0 w1 = commandPacket cmd arg ∧
      w1.extractLsb' 0 8 = (if rbits = 0 then 0x00#8 else if rbits = 48 then 0x2F#8 else 0x87#8)

/-- R92, R159 (d): `frame_command` refuses every response length but 0, 48 and 136, and is injective. -/
def Obligations.FrameCommandIsInjective : Prop :=
  (∀ cmd arg rbits, frameCommand cmd arg rbits = none ↔ rbits ≠ 0 ∧ rbits ≠ 48 ∧ rbits ≠ 136) ∧
  ∀ cmd arg rbits cmd' arg' rbits' w, frameCommand cmd arg rbits = some w → frameCommand cmd' arg' rbits' = some w →
    cmd = cmd' ∧ arg = arg' ∧ rbits = rbits'

/-! ### Command issue and reading the result -/

/-- R170, R174: COMMAND_R1 (`want` 1 and 0) and COMMAND_R3, their codes, and in `CU_IDLE` with two free slots in `TXQ` (init
done is a premise, log 10) the whole next state. -/
def Obligations.CommandR1AndR3Issue : Prop :=
  (∀ p : Ports, p.opsel = 0x8 → decodePorts p = .commandR1 p.cmd p.arg p.want) ∧
  (∀ p : Ports, p.opsel = 0xA → decodePorts p = .commandR3 p.cmd p.arg) ∧
  ∀ (s : State) (cmd : BitVec 6) (arg : Word), s.cuState = .idle → s.txq.length + 2 ≤ Config.txqDepth →
    (∀ want : Bool, ∃ w0 w1, frameCommand cmd arg (if want then 48 else 0) = some (w0, w1) ∧
      exec (.commandR1 cmd arg want) s = .next { s with
        rxq := [], txq := s.txq ++ [w0, w1], cuStart := s.nowMs, cuCmd := cmd,
        cuShape := if want then .r1 else .none, cuStatus := .ok, cuState := .wait, hostOut := .nothing }) ∧
    ∃ w0 w1, frameCommand cmd arg 48 = some (w0, w1) ∧
      exec (.commandR3 cmd arg) s = .next { s with
        rxq := [], txq := s.txq ++ [w0, w1], cuStart := s.nowMs, cuCmd := cmd,
        cuShape := .r3, cuStatus := .ok, cuState := .wait, hostOut := .nothing }

/-- R172: COMMAND_R2, its code, and as R170 the whole next state, with the capture armed in the same step (a free DMA channel
is a premise, log 11). -/
def Obligations.CommandR2Issues : Prop :=
  (∀ p : Ports, p.opsel = 0x9 → decodePorts p = .commandR2 p.cmd p.arg) ∧
  ∀ (s : State) (cmd : BitVec 6) (arg : Word), s.cuState = .idle → s.txq.length + 2 ≤ Config.txqDepth →
    ∃ w0 w1, frameCommand cmd arg 136 = some (w0, w1) ∧
      exec (.commandR2 cmd arg) s = .next { s with
        rxq := [], txq := s.txq ++ [w0, w1], cuStart := s.nowMs, cuCmd := cmd, capN := 0, capArmed := true,
        cuShape := .r2, cuStatus := .ok, cuState := .wait, hostOut := .nothing }

/-- R175: a COMMAND operation in `CU_WAIT`, or with less than two free slots in `TXQ`, is refused. -/
def Obligations.CommandRefusedOutsidePrecondition : Prop :=
  ∀ (s : State) (i : Instr), Instr.isCommand i = true →
    (s.cuState = .wait → exec i s = .refused .commandInFlight) ∧
    (s.cuState = .idle → Config.txqDepth < s.txq.length + 2 → exec i s = .refused .txqNoRoom)

/-- R278: right after a COMMAND no reply is ready, whatever stale words `RXQ` held. -/
def Obligations.StaleWordsAreNoReply : Prop :=
  ∀ (s t : State) (i : Instr), Instr.isCommand i = true → exec i s = .next t → t.rxq = [] ∧ replyReady t = false

/-- R176: CU_RESULT, its code, in either `CU_STATE`: `CU_STATE`, `CU_STATUS`, `CU_RESP32`, no other change, and the same when
repeated; in `CU_WAIT`, in a state that meets the invariants, the status is `OK`, and the third means nothing, so the statement
leaves it open (log 8). -/
def Obligations.CuResultReturnsTheStatus : Prop :=
  (∀ p : Ports, p.opsel = 0xB → decodePorts p = .cuResult) ∧
  ∀ s : State,
    (s.cuState = .idle → exec .cuResult s = .next { s with hostOut := .result 0 s.cuStatus.code s.cuResp32 }) ∧
    (s.cuState = .wait → ∃ v, exec .cuResult s = .next { s with hostOut := .result 1 s.cuStatus.code v } ∧
      (s.Inv → s.cuStatus.code = 0)) ∧
    execAll [.cuResult, .cuResult] s = exec .cuResult s

/-- R177: CU_RDBUF k, its code; in `CU_IDLE` it returns `RESP_BUF[k]`, k = 0..15; in `CU_WAIT` it returns a value the statement
leaves open (the model's choice between the two that 93, U8 allows; log 8). -/
def Obligations.CuRdbufReturnsTheByte : Prop :=
  (∀ p : Ports, p.opsel = 0xC → decodePorts p = .cuRdbuf p.k) ∧
  ∀ (s : State) (k : BitVec 4),
    (s.cuState = .idle → ∀ h : k.toNat < 16,
      exec (.cuRdbuf k) s = .next { s with hostOut := .respByte (s.respBuf[k.toNat]'h) }) ∧
    (s.cuState = .wait → ∃ v, exec (.cuRdbuf k) s = .next { s with hostOut := .respByte v })

/-- R58: the read operations change nothing but the result port, and repeated they return the same. That CU_RDBUF answers in
`CU_WAIT` at all is the model's choice between the two treatments of 93, U8 (log 8). -/
def Obligations.ReadsHaveNoSideEffects : Prop :=
  ∀ (s : State) (i : Instr), i ∈ [.crc7Rd, .crc16Rd, .cuResult] ∨ (∃ k, i = .cuRdbuf k) →
    ∃ o, exec i s = .next { s with hostOut := o } ∧ execAll [i, i] s = .next { s with hostOut := o }

/-- R91: a request with `OPSEL` 0x0, 0xD, 0xE or 0xF is refused, whatever stands on the operand ports. -/
def Obligations.ReservedOpselIsRefused : Prop :=
  (∀ (s : State) (p : Ports), p.opsel = 0x0 ∨ p.opsel = 0xD ∨ p.opsel = 0xE ∨ p.opsel = 0xF →
    presentFrame (.hostOp p) s = .refused (.reservedOpsel p.opsel)) ∧
  ∀ s : State, exec .reserved0 s = .refused (.reservedOpsel 0x0) ∧ exec .reservedD s = .refused (.reservedOpsel 0xD) ∧
    exec .reservedE s = .refused (.reservedOpsel 0xE) ∧ exec .reservedF s = .refused (.reservedOpsel 0xF)

/-! ### Units of the wire and the queues -/

/-- R77 to R79 with R178 and R59 (log 2, log 16): a reply word of any format enters `RXQ` at its tail while there is room,
and nothing else changes; ENV has no such step while `RXQ` is full. -/
def Obligations.ReplyWordsEnterRxq : Prop :=
  ∀ (s : State) (i : Instr) (w : Word),
    (∃ code payload, i = .rw0 code payload ∧ w = code ++ payload) ∨
    (∃ filler payload crc e, i = .rw1 filler payload crc e ∧ w = filler ++ payload ++ crc ++ e) ∨
    i = .rwdone w ∨ i = .capw03 w ∨
    (∃ filler crc e, i = .capw4 filler crc e ∧ w = filler ++ crc ++ e) →
    (s.rxq.length < Config.rxqDepth → exec i s = .next { s with rxq := s.rxq ++ [w] }) ∧
    (Config.rxqDepth ≤ s.rxq.length → exec i s = .refused (.notEnabled .envRxPush))

/-- R75, R76 with R178 (log 2): a command word leaves `TXQ` where it stands at its head, and nothing else changes. -/
def Obligations.CommandWordsLeaveTxq : Prop :=
  ∀ (s : State) (i : Instr) (w : Word) (rest : List Word),
    (∃ len index argHi, i = .seqW0 len index argHi ∧ w = len ++ 0#1 ++ 1#1 ++ index ++ argHi) ∨
    (∃ argLo crc rlen, i = .seqW1 argLo crc rlen ∧ w = argLo ++ crc ++ 1#1 ++ rlen) →
    (s.txq = w :: rest → exec i s = .next { s with txq := rest }) ∧
    (∀ h, s.txq = h :: rest → h ≠ w → exec i s = .refused .notAtTxqHead)

/-- R71, R152 (log 2): a command packet goes out where the two words at the head of `TXQ` carry it; and the two words an
issued command pushed carry exactly its packet. -/
def Obligations.CommandPacketGoesOut : Prop :=
  (∀ (s : State) (index : BitVec 6) (arg : Word) (crc : BitVec 7) (w0 w1 : Word) (rest : List Word),
    s.txq = w0 :: w1 :: rest → w0.extractLsb' 0 24 ++ w1.extractLsb' 8 24 = packCmd48 index arg crc →
    exec (.cmd48 index arg crc) s = .next { s with txq := rest }) ∧
  ∀ (s t : State) (i : Instr) (cmd : BitVec 6) (arg : Word),
    (∃ want, i = .commandR1 cmd arg want) ∨ i = .commandR2 cmd arg ∨ i = .commandR3 cmd arg →
    s.txq = [] → exec i s = .next t →
    exec (.cmd48 cmd arg ((crc7 (commandHead cmd arg)).extractLsb' 1 7)) t = .next { t with txq := [] }

/-- R72, R77 (log 2, log 19): a 48-bit response arrives as two words that carry it, the unused half of the second being
whatever ENV puts there. -/
def Obligations.Resp48ArrivesAsTwoWords : Prop :=
  ∀ (s : State) (start : BitVec 2) (index : BitVec 6) (payload : Word) (crc : BitVec 7) (e : BitVec 1),
    s.rxq.length + 2 ≤ Config.rxqDepth → ∃ (w0 w1 : Word) (d : Nat),
      exec (.resp48 start index payload crc e) s = .next { s with rxq := s.rxq ++ [w0, w1], draws := d } ∧
      w0 ++ w1.extractLsb' 0 16 = start ++ index ++ payload ++ crc ++ e

/-- R73, R79, R279 (log 2, log 19): with the capture armed and empty, a 136-bit response ends in `CAP`, `CAP_N` = 5, `RXQ` empty,
and nothing else changes. -/
def Obligations.Resp136EndsInCapture : Prop :=
  ∀ (s : State) (marker : Byte) (payload : BitVec 120) (crc : BitVec 7) (e : BitVec 1),
    s.capArmed = true → s.capN = 0 → s.rxq = [] → ∃ (cap : Vector Word 5) (d : Nat),
      exec (.resp136 marker payload crc e) s = .next { s with cap := cap, capN := 5, draws := d } ∧
      cap[0] ++ cap[1] ++ cap[2] ++ cap[3] ++ (cap[4]).extractLsb' 0 8 = marker ++ payload ++ crc ++ e

/-! ### The steps of CAPTURE, CMDU, ENV and CLOCK -/

/-- R179: CAP_MOVE: enabled where armed, `CAP_N` < 5 and `RXQ` not empty; one word from the head of `RXQ` to `CAP[CAP_N]`, and
the count. -/
def Obligations.CapMoveTakesOneWord : Prop :=
  ∀ (s : State) (w : Word) (rest : List Word), s.rxq = w :: rest →
    (∀ h : s.capN.toNat < 5, s.capArmed = true →
      perform .capMove s = .next { s with cap := s.cap.set s.capN.toNat w h, capN := s.capN + 1, rxq := rest }) ∧
    (∀ u : State, s.capArmed = false ∨ 5 ≤ s.capN.toNat → perform .capMove s ≠ .next u) ∧
    ∀ u : State, perform .capMove { s with rxq := [] } ≠ .next u

/-- R178: ENV_TX_POP, ENV_RX_PUSH and CLOCK_TICK: when enabled, and all they change. -/
def Obligations.EnvironmentSteps : Prop :=
  ∀ (s : State) (w : Word),
    (∀ rest, s.txq = w :: rest → perform .envTxPop s = .next { s with txq := rest }) ∧
    (s.txq = [] → ∀ u, perform .envTxPop s ≠ .next u) ∧
    (s.rxq.length < Config.rxqDepth → perform (.envRxPush w) s = .next { s with rxq := s.rxq ++ [w] }) ∧
    (Config.rxqDepth ≤ s.rxq.length → ∀ u, perform (.envRxPush w) s ≠ .next u) ∧
    perform .clockTick s = .next { s with nowMs := s.nowMs + 1 }

/-- R180, R182, R201: what each shape awaits; and the deadline, in natural numbers: the wrap of `NOW_MS` does no harm. -/
def Obligations.WaitPredicates : Prop :=
  ∀ s : State,
    (s.cuShape = .none → (replyReady s = true ↔ 1 ≤ s.rxq.length)) ∧
    (s.cuShape = .r1 ∨ s.cuShape = .r3 → (replyReady s = true ↔ 2 ≤ s.rxq.length)) ∧
    (s.cuShape = .r2 → (replyReady s = true ↔ s.capN = 5)) ∧
    (deadlinePassed s = true ↔ 2 < (s.nowMs.toNat + 2 ^ 32 - s.cuStart.toNat) % 2 ^ 32) ∧
    ∀ k : Nat, s.nowMs = s.cuStart + BitVec.ofNat 32 k → k < 2 ^ 32 → (deadlinePassed s = true ↔ 3 ≤ k)

/-- R183: where the reply is ready the command completes and cannot time out, however late it is; and, by the enabling condition
of R181, CU_COMPLETE has a next state nowhere else. -/
def Obligations.ReplyBeatsDeadline : Prop :=
  ∀ s : State,
    (s.cuState = .wait → replyReady s = true →
      (∃ t, perform .cuComplete s = .next t ∧ t.cuState = .idle) ∧ ∀ u, perform .cuTimeout s ≠ .next u) ∧
    ∀ u, perform .cuComplete s = .next u → s.cuState = .wait ∧ replyReady s = true

/-- R181, R186, R187, R243, R244: the ending of an R1 command: the CRC first, then all eight bits of the reply code, index 41
exempt; `CU_RESP32` only on `OK`. -/
def Obligations.CompleteR1Decodes : Prop :=
  ∀ (s : State) (w0 w1 : Word) (rest : List Word),
    s.cuState = .wait → s.cuShape = .r1 → s.rxq = w0 :: w1 :: rest →
    ∃ t, perform .cuComplete s = .next t ∧ EndingKeeps s t ∧ t.cuState = .idle ∧ t.rxq = rest ∧ t.seqPc = s.seqPc ∧
      t.capArmed = s.capArmed ∧
      (crc7 (rsp48Head (w0 ++ w1.extractLsb' 0 16)) ≠ w1.extractLsb' 0 8 &&& 0xFE#8 → t.cuStatus = .responseCrc) ∧
      (crc7 (rsp48Head (w0 ++ w1.extractLsb' 0 16)) = w1.extractLsb' 0 8 &&& 0xFE#8 →
        (w0.extractLsb' 24 8 ≠ s.cuCmd.setWidth 8 → s.cuCmd ≠ 41#6 → t.cuStatus = .responseCode) ∧
        (w0.extractLsb' 24 8 = s.cuCmd.setWidth 8 ∨ s.cuCmd = 41#6 →
          t.cuStatus = .ok ∧ t.cuResp32 = w0.extractLsb' 0 24 ++ w1.extractLsb' 8 8))

/-- R181, R190, R191: the endings of an R3 command (the payload, always `OK`, nothing checked) and of a command with no
response (one word popped and discarded, `OK`). -/
def Obligations.CompleteR3AndNoResponse : Prop :=
  (∀ (s : State) (w0 w1 : Word) (rest : List Word),
    s.cuState = .wait → s.cuShape = .r3 → s.rxq = w0 :: w1 :: rest →
    ∃ t, perform .cuComplete s = .next t ∧ EndingKeeps s t ∧ t.cuState = .idle ∧ t.rxq = rest ∧ t.seqPc = s.seqPc ∧
      t.capArmed = s.capArmed ∧ t.cuStatus = .ok ∧ t.cuResp32 = w0.extractLsb' 0 24 ++ w1.extractLsb' 8 8) ∧
  ∀ (s : State) (w : Word) (rest : List Word), s.cuState = .wait → s.cuShape = .none → s.rxq = w :: rest →
    ∃ t, perform .cuComplete s = .next t ∧ EndingKeeps s t ∧ t.cuState = .idle ∧ t.rxq = rest ∧ t.seqPc = s.seqPc ∧
      t.capArmed = s.capArmed ∧ t.cuStatus = .ok

/-- R181, R188: the ending of an R2 command: sixteen bytes unpacked whatever the status, CRC7 over fifteen of them, then the
marker (0x3F is the spec's K3, log 6); the capture is disarmed and `RXQ` is not popped. -/
def Obligations.CompleteR2Decodes : Prop :=
  ∀ s : State, s.cuState = .wait → s.cuShape = .r2 → s.capN = 5 →
    ∃ t, perform .cuComplete s = .next t ∧ EndingKeeps s t ∧ t.cuState = .idle ∧ t.rxq = s.rxq ∧ t.seqPc = s.seqPc ∧
      t.capArmed = false ∧
      (∀ (k : Nat) (h : k < 16), t.respBuf[k] = byte136 (rsp136OfCap s.cap) (k + 1)) ∧
      (crc7 (t.respBuf.toList.take 15) ≠ t.respBuf[15] &&& 0xFE#8 → t.cuStatus = .responseCrc) ∧
      (crc7 (t.respBuf.toList.take 15) = t.respBuf[15] &&& 0xFE#8 →
        (byte136 (rsp136OfCap s.cap) 0 ≠ 0x3F#8 → t.cuStatus = .responseCode) ∧
        (byte136 (rsp136OfCap s.cap) 0 = 0x3F#8 → t.cuStatus = .ok))

/-- R184: CU_TIMEOUT: when it is enabled, for every shape, and what it writes; `TXQ` is not cleared. -/
def Obligations.TimeoutRecovers : Prop :=
  ∀ s : State,
    (s.cuState = .wait → replyReady s = false → deadlinePassed s = true →
      ∃ t, perform .cuTimeout s = .next t ∧ EndingKeeps s t ∧ t.cuState = .idle ∧ t.cuStatus = .responseTimeout ∧
        t.capArmed = false ∧ t.rxq = [] ∧ t.seqPc = Config.cmdClkEntry) ∧
    ∀ u, perform .cuTimeout s = .next u → s.cuState = .wait ∧ replyReady s = false ∧ deadlinePassed s = true

/-! ### Whole-machine rules -/

/-- R37, R203: `CU_STATE` goes to `CU_WAIT` by a COMMAND operation only, and to `CU_IDLE` by CU_COMPLETE, CU_TIMEOUT or
RESET only. -/
def Obligations.OnlyCommandsAndEndingsMoveCuState : Prop :=
  ∀ (a : Stimulus) (s t : State), perform a s = .next t → t.cuState ≠ s.cuState →
    (t.cuState = .wait ∧ ∃ i, Stimulus.instr? a = some i ∧ Instr.isCommand i = true) ∨
    (t.cuState = .idle ∧ (a = .cuComplete ∨ a = .cuTimeout ∨ a = .resetEvent))

/-- R20, R21, R23, R134: who writes the checksum registers: their own operations and RESET, and nobody else. -/
def Obligations.ChecksumRegistersHaveOneUnitEach : Prop :=
  ∀ (a : Stimulus) (s t : State), perform a s = .next t → a ≠ .resetEvent →
    (t.crc7Acc ≠ s.crc7Acc → Stimulus.instr? a = some .crc7Clr ∨ ∃ b, Stimulus.instr? a = some (.crc7Byte b)) ∧
    (t.crc16Lane ≠ s.crc16Lane → Stimulus.instr? a = some .crc16Clr ∨ ∃ w, Stimulus.instr? a = some (.crc16Word w)) ∧
    (t.crc16Match ≠ s.crc16Match → ∃ e, Stimulus.instr? a = some (.crc16Cmp e))

/-- R108, R109: CMDU has its own copy of the CRC7 logic: what the accumulators hold has no influence on a COMMAND, on a step of
CMDU, CAPTURE, ENV (its format rows, log 2, and its running of `SEQ_PC`, log 14, among them) or CLOCK, nor those on the
accumulators. -/
def Obligations.CommandsIgnoreTheAccumulators : Prop :=
  ∀ (a : Stimulus) (s : State) (acc : Byte) (l : Lanes),
    (∃ i, Stimulus.instr? a = some i ∧ (Instr.isCommand i = true ∨ Instr.isEnvRow i = true)) ∨
      a ∈ [.cuComplete, .cuTimeout, .capMove, .envTxPop, .clockTick] ∨ (∃ w, a = .envRxPush w) ∨
      (∃ pc, a = .envSeqRun pc) →
    perform a { s with crc7Acc := acc, crc16Lane := l } =
      Result.map (fun t => { t with crc7Acc := acc, crc16Lane := l }) (perform a s)

/-- R35, R178, D27: `SEQ_PC` is written by CU_TIMEOUT and ENV alone; a word enters `TXQ` only at its tail by a COMMAND and
leaves it only at its head. -/
def Obligations.SequencerSideChangesOnlyAsListed : Prop :=
  ∀ (a : Stimulus) (s t : State), perform a s = .next t → a ≠ .resetEvent →
    (t.seqPc ≠ s.seqPc → (a = .cuTimeout ∧ t.seqPc = Config.cmdClkEntry) ∨ a = .envSeqRun t.seqPc) ∧
    ((∃ w0 w1, t.txq = s.txq ++ [w0, w1] ∧ ∃ i, Stimulus.instr? a = some i ∧ Instr.isCommand i = true) ∨
      ∃ n, t.txq = s.txq.drop n)

/-! ### Runs -/

/-- R194, generalised: from `CU_IDLE`, COMMAND_R1, then a response that echoes the index with any payload: with the right CRC7 the
command ends `OK` with that payload, whatever the end bit; with any other CRC7 it ends `RESPONSE_CRC`. The response arrives by
the composite RESP48 step, the model's own (log 2, log 19). -/
def Obligations.CommandRoundTrip : Prop :=
  ∀ (s : State) (cmd : BitVec 6) (arg payload : Word) (crc : BitVec 7) (e : BitVec 1),
    s.cuState = .idle → s.txq.length + 2 ≤ Config.txqDepth →
    ∃ t, Result.andThen (execAll [.commandR1 cmd arg true, .resp48 0 cmd payload crc e] s) (perform .cuComplete) = .next t ∧
      t.cuState = .idle ∧ t.rxq = [] ∧
      (crc = (crc7 ((0#2 ++ cmd) :: (commandHead cmd payload).tail)).extractLsb' 1 7 →
        t.cuStatus = .ok ∧ t.cuResp32 = payload) ∧
      (crc ≠ (crc7 ((0#2 ++ cmd) :: (commandHead cmd payload).tail)).extractLsb' 1 7 → t.cuStatus = .responseCrc)

/-- R188, R192 on a run: from `CU_IDLE`, COMMAND_R2, then a 136-bit response through the queue and the capture: the buffer holds
its bytes 1 to 16, and the command ends `OK` exactly where the CRC7 and the marker are right (log 6). The response arrives by the
composite RESP136 step, the model's own (log 2, log 19). -/
def Obligations.RegisterReadRoundTrip : Prop :=
  ∀ (s : State) (cmd : BitVec 6) (arg : Word) (marker : Byte) (payload : BitVec 120) (crc : BitVec 7) (e : BitVec 1),
    s.cuState = .idle → s.txq.length + 2 ≤ Config.txqDepth →
    ∃ t, Result.andThen (execAll [.commandR2 cmd arg, .resp136 marker payload crc e] s) (perform .cuComplete) = .next t ∧
      t.cuState = .idle ∧ t.capArmed = false ∧
      (∀ (k : Nat) (h : k < 15), t.respBuf[k] = payload.extractLsb' (112 - 8 * k) 8) ∧ t.respBuf[15] = crc ++ e ∧
      (t.cuStatus = .ok ↔
        crc = (crc7 ((List.range 15).map fun k => payload.extractLsb' (112 - 8 * k) 8)).extractLsb' 1 7 ∧ marker = 0x3F#8)

/-- R185, R297: with nothing from outside but the clock (the turn order is the model's, log 1), every wait ends: at most four
words captured, three ticks and one closing step. -/
def Obligations.EveryWaitEnds : Prop :=
  ∀ s : State, s.cuState = .wait → s.pending = [] →
    ∃ n ≤ 8, ∃ t, Host.Core.run Sys2Proof.core n s = .next t ∧ t.cuState = .idle
end

