-- ==== Sys2Proof/Laws/Bits.lean ====
section
/-! SUPPORT. Where each field of a packed format stands: reading a field of a packed value gives the field, and packing the
fields of a value gives the value; the two views of the CRC16 lanes likewise. -/

namespace Sys2Proof.Machine

/-! ### R71: CMD48 -/

section Cmd48

variable (index : BitVec 6) (arg : Word) (crc : BitVec 7)

theorem packCmd48_fixed : cmd48FixedOk (packCmd48 index arg crc) = true := by
  simp only [cmd48FixedOk, Bool.and_eq_true, beq_iff_eq]
  refine ⟨⟨?_, ?_⟩, ?_⟩ <;>
    · ext i hi
      simp only [packCmd48, BitVec.getElem_extractLsb', BitVec.getLsbD_append]
      interval_cases i
      simp

theorem packCmd48_index : (packCmd48 index arg crc).extractLsb' 40 6 = index := by
  ext i hi
  simp only [packCmd48, BitVec.getElem_extractLsb', BitVec.getLsbD_append]
  interval_cases i <;> simp

theorem packCmd48_arg : (packCmd48 index arg crc).extractLsb' 8 32 = arg := by
  ext i hi
  simp only [packCmd48, BitVec.getElem_extractLsb', BitVec.getLsbD_append]
  simp [show ¬ 8 + i < 1 by omega, hi]

theorem packCmd48_crc : (packCmd48 index arg crc).extractLsb' 1 7 = crc := by
  ext i hi
  simp only [packCmd48, BitVec.getElem_extractLsb', BitVec.getLsbD_append]
  interval_cases i <;> simp

theorem packCmd48_of_fixed (v : BitVec 48) (h : cmd48FixedOk v = true) :
    packCmd48 (v.extractLsb' 40 6) (v.extractLsb' 8 32) (v.extractLsb' 1 7) = v := by
  simp only [cmd48FixedOk, Bool.and_eq_true, beq_iff_eq] at h
  obtain ⟨⟨h47, h46⟩, h0⟩ := h
  have b47 : v.getLsbD 47 = false := by simpa using congrArg (·.getLsbD 0) h47
  have b46 : v.getLsbD 46 = true := by simpa using congrArg (·.getLsbD 0) h46
  have b0 : v.getLsbD 0 = true := by simpa using congrArg (·.getLsbD 0) h0
  apply BitVec.eq_of_getLsbD_eq
  intro i hi
  simp only [packCmd48, BitVec.getLsbD_append]
  interval_cases i <;> simp_all

end Cmd48

/-! ### R72, R73: the responses -/

section Resp48

variable (start : BitVec 2) (index : BitVec 6) (payload : Word) (crc : BitVec 7) (e : BitVec 1)

theorem packResp48_start : (packResp48 start index payload crc e).extractLsb' 46 2 = start := by
  ext i hi
  simp only [packResp48, BitVec.getElem_extractLsb', BitVec.getLsbD_append]
  interval_cases i <;> simp

theorem packResp48_index : (packResp48 start index payload crc e).extractLsb' 40 6 = index := by
  ext i hi
  simp only [packResp48, BitVec.getElem_extractLsb', BitVec.getLsbD_append]
  interval_cases i <;> simp

theorem packResp48_payload : (packResp48 start index payload crc e).extractLsb' 8 32 = payload := by
  ext i hi
  simp only [packResp48, BitVec.getElem_extractLsb', BitVec.getLsbD_append]
  simp [show ¬ 8 + i < 1 by omega, hi]

theorem packResp48_crc : (packResp48 start index payload crc e).extractLsb' 1 7 = crc := by
  ext i hi
  simp only [packResp48, BitVec.getElem_extractLsb', BitVec.getLsbD_append]
  interval_cases i <;> simp

theorem packResp48_end : (packResp48 start index payload crc e).extractLsb' 0 1 = e := by
  ext i hi
  simp only [packResp48, BitVec.getElem_extractLsb', BitVec.getLsbD_append]
  interval_cases i
  simp

theorem packResp48_of_fields (v : BitVec 48) :
    packResp48 (v.extractLsb' 46 2) (v.extractLsb' 40 6) (v.extractLsb' 8 32) (v.extractLsb' 1 7) (v.extractLsb' 0 1)
      = v := by
  apply BitVec.eq_of_getLsbD_eq
  intro i hi
  simp only [packResp48, BitVec.getLsbD_append]
  interval_cases i <;> simp

end Resp48

section Resp136

variable (marker : Byte) (payload : BitVec 120) (crc : BitVec 7) (e : BitVec 1)

theorem packResp136_marker : (packResp136 marker payload crc e).extractLsb' 128 8 = marker := by
  ext i hi
  simp only [packResp136, BitVec.getElem_extractLsb', BitVec.getLsbD_append]
  interval_cases i <;> simp

theorem packResp136_payload : (packResp136 marker payload crc e).extractLsb' 8 120 = payload := by
  ext i hi
  simp only [packResp136, BitVec.getElem_extractLsb', BitVec.getLsbD_append]
  simp [show ¬ 8 + i < 1 by omega, hi]

theorem packResp136_crc : (packResp136 marker payload crc e).extractLsb' 1 7 = crc := by
  ext i hi
  simp only [packResp136, BitVec.getElem_extractLsb', BitVec.getLsbD_append]
  interval_cases i <;> simp

theorem packResp136_end : (packResp136 marker payload crc e).extractLsb' 0 1 = e := by
  ext i hi
  simp only [packResp136, BitVec.getElem_extractLsb', BitVec.getLsbD_append]
  interval_cases i
  simp

theorem packResp136_of_fields (v : BitVec 136) :
    packResp136 (v.extractLsb' 128 8) (v.extractLsb' 8 120) (v.extractLsb' 1 7) (v.extractLsb' 0 1) = v := by
  apply BitVec.eq_of_getLsbD_eq
  intro i hi
  simp only [packResp136, BitVec.getLsbD_append, BitVec.getLsbD_extractLsb']
  rcases Nat.lt_or_ge i 1 with h1 | h1
  · simp [h1]
  · rcases Nat.lt_or_ge (i - 1) 7 with h2 | h2
    · simp [show ¬ i < 1 by omega, h2, show 1 + (i - 1) = i by omega]
    · rcases Nat.lt_or_ge (i - 1 - 7) 120 with h3 | h3
      · simp [show ¬ i < 1 by omega, show ¬ i - 1 < 7 by omega, h3, show 8 + (i - 1 - 7) = i by omega]
      · simp [show ¬ i < 1 by omega, show ¬ i - 1 < 7 by omega, show ¬ i - 1 - 7 < 120 by omega,
          show i - 1 - 7 - 120 < 8 by omega, show 128 + (i - 1 - 7 - 120) = i by omega]

/-- R82, R188: the buffer byte `k` of a packed response is the payload's byte `k`, the first byte topmost. -/
theorem packResp136_payloadByte (k : Nat) (hk : k < 15) :
    byte136 (packResp136 marker payload crc e) (k + 1) = payload.extractLsb' (112 - 8 * k) 8 := by
  ext i hi
  simp only [byte136, packResp136, BitVec.getElem_extractLsb', BitVec.getLsbD_append]
  have h1 : ¬ 128 - 8 * (k + 1) + i < 1 := by omega
  have h2 : ¬ 128 - 8 * (k + 1) + i - 1 < 7 := by omega
  have h3 : 128 - 8 * (k + 1) + i - 1 - 7 < 120 := by omega
  have h4 : 128 - 8 * (k + 1) + i - 1 - 7 = 112 - 8 * k + i := by omega
  rw [if_neg h1, if_neg h2, if_pos h3, h4]

theorem packResp136_markerByte : byte136 (packResp136 marker payload crc e) 0 = marker :=
  packResp136_marker marker payload crc e

theorem packResp136_lastByte : byte136 (packResp136 marker payload crc e) 16 = crc ++ e := by
  apply BitVec.eq_of_getLsbD_eq
  intro i hi
  simp only [byte136, packResp136, BitVec.getLsbD_extractLsb', BitVec.getLsbD_append]
  interval_cases i <;> simp

end Resp136

/-! ### R75, R76: the command words -/

section SeqWords

variable (len : BitVec 8) (index : BitVec 6) (argHi argLo : BitVec 16) (crc : BitVec 7) (rlen : BitVec 8)

theorem packSeqW0_fixed : seqW0FixedOk (packSeqW0 len index argHi) = true := by
  simp only [seqW0FixedOk, Bool.and_eq_true, beq_iff_eq]
  refine ⟨?_, ?_⟩ <;>
    · ext i hi
      simp only [packSeqW0, BitVec.getElem_extractLsb', BitVec.getLsbD_append]
      interval_cases i
      simp

theorem packSeqW0_len : (packSeqW0 len index argHi).extractLsb' 24 8 = len := by
  ext i hi
  simp only [packSeqW0, BitVec.getElem_extractLsb', BitVec.getLsbD_append]
  interval_cases i <;> simp

theorem packSeqW0_index : (packSeqW0 len index argHi).extractLsb' 16 6 = index := by
  ext i hi
  simp only [packSeqW0, BitVec.getElem_extractLsb', BitVec.getLsbD_append]
  interval_cases i <;> simp

theorem packSeqW0_argHi : (packSeqW0 len index argHi).extractLsb' 0 16 = argHi := by
  ext i hi
  simp only [packSeqW0, BitVec.getElem_extractLsb', BitVec.getLsbD_append]
  interval_cases i <;> simp

theorem packSeqW0_of_fixed (w : Word) (h : seqW0FixedOk w = true) :
    packSeqW0 (w.extractLsb' 24 8) (w.extractLsb' 16 6) (w.extractLsb' 0 16) = w := by
  simp only [seqW0FixedOk, Bool.and_eq_true, beq_iff_eq] at h
  obtain ⟨h23, h22⟩ := h
  have b23 : w.getLsbD 23 = false := by simpa using congrArg (·.getLsbD 0) h23
  have b22 : w.getLsbD 22 = true := by simpa using congrArg (·.getLsbD 0) h22
  apply BitVec.eq_of_getLsbD_eq
  intro i hi
  simp only [packSeqW0, BitVec.getLsbD_append]
  interval_cases i <;> simp_all

theorem packSeqW1_fixed : seqW1FixedOk (packSeqW1 argLo crc rlen) = true := by
  simp only [seqW1FixedOk, beq_iff_eq]
  ext i hi
  simp only [packSeqW1, BitVec.getElem_extractLsb', BitVec.getLsbD_append]
  interval_cases i
  simp

theorem packSeqW1_argLo : (packSeqW1 argLo crc rlen).extractLsb' 16 16 = argLo := by
  ext i hi
  simp only [packSeqW1, BitVec.getElem_extractLsb', BitVec.getLsbD_append]
  interval_cases i <;> simp

theorem packSeqW1_crc : (packSeqW1 argLo crc rlen).extractLsb' 9 7 = crc := by
  ext i hi
  simp only [packSeqW1, BitVec.getElem_extractLsb', BitVec.getLsbD_append]
  interval_cases i <;> simp

theorem packSeqW1_rlen : (packSeqW1 argLo crc rlen).extractLsb' 0 8 = rlen := by
  ext i hi
  simp only [packSeqW1, BitVec.getElem_extractLsb', BitVec.getLsbD_append]
  interval_cases i <;> simp

theorem packSeqW1_of_fixed (w : Word) (h : seqW1FixedOk w = true) :
    packSeqW1 (w.extractLsb' 16 16) (w.extractLsb' 9 7) (w.extractLsb' 0 8) = w := by
  simp only [seqW1FixedOk, beq_iff_eq] at h
  have b8 : w.getLsbD 8 = true := by simpa using congrArg (·.getLsbD 0) h
  apply BitVec.eq_of_getLsbD_eq
  intro i hi
  simp only [packSeqW1, BitVec.getLsbD_append]
  interval_cases i <;> simp_all

end SeqWords

/-! ### R77, R79: the reply words -/

section ReplyWords

variable (code : BitVec 8) (p24 : BitVec 24) (filler : BitVec 16) (p8 : BitVec 8) (crc : BitVec 7) (e : BitVec 1)

theorem packRw0_code : (packRw0 code p24).extractLsb' 24 8 = code := by
  ext i hi
  simp only [packRw0, BitVec.getElem_extractLsb', BitVec.getLsbD_append]
  interval_cases i <;> simp

theorem packRw0_payload : (packRw0 code p24).extractLsb' 0 24 = p24 := by
  ext i hi
  simp only [packRw0, BitVec.getElem_extractLsb', BitVec.getLsbD_append]
  interval_cases i <;> simp

theorem packRw0_of_fields (w : Word) : packRw0 (w.extractLsb' 24 8) (w.extractLsb' 0 24) = w := by
  apply BitVec.eq_of_getLsbD_eq
  intro i hi
  simp only [packRw0, BitVec.getLsbD_append]
  interval_cases i <;> simp

theorem packRw1_filler : (packRw1 filler p8 crc e).extractLsb' 16 16 = filler := by
  ext i hi
  simp only [packRw1, BitVec.getElem_extractLsb', BitVec.getLsbD_append]
  interval_cases i <;> simp

theorem packRw1_payload : (packRw1 filler p8 crc e).extractLsb' 8 8 = p8 := by
  ext i hi
  simp only [packRw1, BitVec.getElem_extractLsb', BitVec.getLsbD_append]
  interval_cases i <;> simp

theorem packRw1_crc : (packRw1 filler p8 crc e).extractLsb' 1 7 = crc := by
  ext i hi
  simp only [packRw1, BitVec.getElem_extractLsb', BitVec.getLsbD_append]
  interval_cases i <;> simp

theorem packRw1_end : (packRw1 filler p8 crc e).extractLsb' 0 1 = e := by
  ext i hi
  simp only [packRw1, BitVec.getElem_extractLsb', BitVec.getLsbD_append]
  interval_cases i
  simp

theorem packRw1_of_fields (w : Word) :
    packRw1 (w.extractLsb' 16 16) (w.extractLsb' 8 8) (w.extractLsb' 1 7) (w.extractLsb' 0 1) = w := by
  apply BitVec.eq_of_getLsbD_eq
  intro i hi
  simp only [packRw1, BitVec.getLsbD_append]
  interval_cases i <;> simp

theorem packCapw4_filler : (packCapw4 p24 crc e).extractLsb' 8 24 = p24 := by
  ext i hi
  simp only [packCapw4, BitVec.getElem_extractLsb', BitVec.getLsbD_append]
  interval_cases i <;> simp

theorem packCapw4_crc : (packCapw4 p24 crc e).extractLsb' 1 7 = crc := by
  ext i hi
  simp only [packCapw4, BitVec.getElem_extractLsb', BitVec.getLsbD_append]
  interval_cases i <;> simp

theorem packCapw4_end : (packCapw4 p24 crc e).extractLsb' 0 1 = e := by
  ext i hi
  simp only [packCapw4, BitVec.getElem_extractLsb', BitVec.getLsbD_append]
  interval_cases i
  simp

theorem packCapw4_of_fields (w : Word) : packCapw4 (w.extractLsb' 8 24) (w.extractLsb' 1 7) (w.extractLsb' 0 1) = w := by
  apply BitVec.eq_of_getLsbD_eq
  intro i hi
  simp only [packCapw4, BitVec.getLsbD_append]
  interval_cases i <;> simp

/-- R81: the two words a 48-bit response arrives in carry it. -/
theorem rsp48OfWords_of_rsp48 (r : BitVec 48) : rsp48OfWords (rw0OfRsp48 r) (rw1OfRsp48 r filler) = r := by
  apply BitVec.eq_of_getLsbD_eq
  intro i hi
  simp only [rsp48OfWords, rw0OfRsp48, rw1OfRsp48, BitVec.getLsbD_append, BitVec.getLsbD_extractLsb']
  interval_cases i <;> simp

end ReplyWords

/-! ### R126, R127: the two views of the lanes -/

theorem Lanes.ofPacked_packed (l : Lanes) : Lanes.ofPacked l.packed = l := by
  obtain ⟨a, b, c, d⟩ := l
  simp only [Lanes.ofPacked, Lanes.packed, Lanes.mk.injEq]
  refine ⟨?_, ?_, ?_, ?_⟩ <;>
    · apply BitVec.eq_of_getLsbD_eq
      intro i hi
      simp only [BitVec.getLsbD_extractLsb', BitVec.getLsbD_append]
      interval_cases i <;> simp

theorem Lanes.packed_ofPacked (p : BitVec 64) : (Lanes.ofPacked p).packed = p := by
  apply BitVec.eq_of_getLsbD_eq
  intro i hi
  simp only [Lanes.ofPacked, Lanes.packed, BitVec.getLsbD_append, BitVec.getLsbD_extractLsb']
  interval_cases i <;> simp

theorem Lanes.ofWire_wire (l : Lanes) : Lanes.ofWire l.wire = l := by
  obtain ⟨a, b, c, d⟩ := l
  simp only [Lanes.ofWire, laneOfWire, Lanes.wire, wireBit, Lanes.mk.injEq]
  refine ⟨?_, ?_, ?_, ?_⟩ <;>
    · apply BitVec.eq_of_getLsbD_eq
      intro i hi
      simp only [BitVec.getLsbD_append, trailerSymbol, BitVec.getLsbD_ofBool]
      interval_cases i <;> simp

theorem Lanes.wire_ofWire (q : BitVec 64) : (Lanes.ofWire q).wire = q := by
  simp only [Lanes.ofWire, laneOfWire, Lanes.wire, wireBit, trailerSymbol]
  apply BitVec.eq_of_getLsbD_eq
  intro i hi
  simp only [BitVec.getLsbD_append, BitVec.getLsbD_ofBool]
  interval_cases i <;> simp

/-! ### R103: bit 0 of the CRC7 accumulator -/

theorem crc7ByteStep_bit0 (acc b : Byte) : (crc7ByteStep acc b).getLsbD 0 = false := by
  unfold crc7ByteStep
  rw [BitVec.getLsbD_append]
  simp

end Sys2Proof.Machine
end

