-- ==== Sys2Proof/Laws/Memory.lean ====
section
/-! SUPPORT. The HOST's buffer: the canonical form is kept by every operation on it, and what a byte reads as after a write. -/

namespace Sys2Proof.Machine

/-- Every address in the list lies above `a`. -/
def Memory.above (a : Nat) (m : Memory) : Prop := ∀ c ∈ m, a < c.1

theorem Memory.wf_cons (c : Host.Cell) (m : Memory) :
    Memory.wf (c :: m) = true ↔ Memory.above c.1 m ∧ m.wf = true := by
  induction m generalizing c with
  | nil => simp [Memory.wf, Memory.above]
  | cons d rest ih =>
    simp only [Memory.wf, Bool.and_eq_true, decide_eq_true_eq, Memory.above, List.mem_cons, forall_eq_or_imp] at *
    constructor
    · rintro ⟨hlt, hwf⟩
      exact ⟨⟨hlt, fun x hx => lt_trans hlt (((ih d).1 hwf).1 x hx)⟩, hwf⟩
    · rintro ⟨⟨hlt, -⟩, hwf⟩
      exact ⟨hlt, hwf⟩

theorem Memory.writeByte_above (m : Memory) (a b : Nat) (v : Byte) (h : Memory.above a m) (hab : a < b) :
    Memory.above a (m.writeByte b v) := by
  induction m with
  | nil => simpa [Memory.writeByte, Memory.above] using hab
  | cons c rest ih =>
    have hc : a < c.1 := h c (by simp)
    have hr : Memory.above a rest := fun x hx => h x (by simp [hx])
    intro x hx
    simp only [Memory.writeByte] at hx
    split at hx
    · rcases List.mem_cons.1 hx with rfl | hx
      · exact hab
      · exact h x hx
    · split at hx
      · rcases List.mem_cons.1 hx with rfl | hx
        · exact hab
        · exact hr x hx
      · rcases List.mem_cons.1 hx with rfl | hx
        · exact hc
        · exact ih hr x hx

theorem Memory.writeByte_wf (m : Memory) (a : Nat) (v : Byte) (h : m.wf = true) : (m.writeByte a v).wf = true := by
  induction m with
  | nil => rfl
  | cons c rest ih =>
    obtain ⟨habove, hwf⟩ := (Memory.wf_cons c rest).1 h
    simp only [Memory.writeByte]
    split
    · rename_i hlt
      refine (Memory.wf_cons _ _).2 ⟨?_, h⟩
      intro x hx
      rcases List.mem_cons.1 hx with rfl | hx
      · exact hlt
      · exact lt_trans hlt (habove x hx)
    · split
      · rename_i heq
        exact (Memory.wf_cons _ _).2 ⟨by simpa [heq] using habove, hwf⟩
      · exact (Memory.wf_cons _ _).2 ⟨Memory.writeByte_above rest c.1 a v habove (by omega), ih hwf⟩

/-- Every write keeps the canonical form. -/
theorem Memory.write_wf (m : Memory) (addr n v : Nat) (h : m.wf = true) : (m.write addr n v).wf = true := by
  induction n generalizing m addr v with
  | zero => exact h
  | succ n ih => exact ih _ _ _ (Memory.writeByte_wf m addr _ h)

/-- The buffer at reset has the canonical form. -/
theorem State.reset_buffer_wf : State.reset.buffer.wf = true := rfl

theorem Memory.readByte_writeByte_same (m : Memory) (a : Nat) (v : Byte) : (m.writeByte a v).readByte a = some v := by
  induction m with
  | nil => simp [Memory.writeByte, Memory.readByte]
  | cons c rest ih =>
    simp only [Memory.writeByte]
    split
    · simp [Memory.readByte]
    · split
      · simp [Memory.readByte]
      · have : c.1 ≠ a := by omega
        simp [Memory.readByte, this, ih]

theorem Memory.readByte_writeByte_other (m : Memory) (a b : Nat) (v : Byte) (h : a ≠ b) :
    (m.writeByte a v).readByte b = m.readByte b := by
  induction m with
  | nil => simp [Memory.writeByte, Memory.readByte, h]
  | cons c rest ih =>
    simp only [Memory.writeByte]
    split
    · simp [Memory.readByte, h]
    · split
      · rename_i heq
        have : c.1 ≠ b := by omega
        simp [Memory.readByte, h, this]
      · simp [Memory.readByte, ih]

end Sys2Proof.Machine
end

