-- ==== Sys2Proof/Laws/State.lean ====
section
/-! SUPPORT. The fields of each shared update (Machine/Ops.lean), one lemma per field, so that no later proof unfolds a record
update. -/

namespace Sys2Proof.Machine

variable (s : State)

/-! ### `State.answer` -/

@[simp] theorem State.answer_crc7Acc (o : HostOut) : (s.answer o).crc7Acc = s.crc7Acc := rfl
@[simp] theorem State.answer_crc16Lane (o : HostOut) : (s.answer o).crc16Lane = s.crc16Lane := rfl
@[simp] theorem State.answer_crc16Match (o : HostOut) : (s.answer o).crc16Match = s.crc16Match := rfl
@[simp] theorem State.answer_cuState (o : HostOut) : (s.answer o).cuState = s.cuState := rfl
@[simp] theorem State.answer_cuCmd (o : HostOut) : (s.answer o).cuCmd = s.cuCmd := rfl
@[simp] theorem State.answer_cuShape (o : HostOut) : (s.answer o).cuShape = s.cuShape := rfl
@[simp] theorem State.answer_cuStart (o : HostOut) : (s.answer o).cuStart = s.cuStart := rfl
@[simp] theorem State.answer_cuStatus (o : HostOut) : (s.answer o).cuStatus = s.cuStatus := rfl
@[simp] theorem State.answer_cuResp32 (o : HostOut) : (s.answer o).cuResp32 = s.cuResp32 := rfl
@[simp] theorem State.answer_respBuf (o : HostOut) : (s.answer o).respBuf = s.respBuf := rfl
@[simp] theorem State.answer_cap (o : HostOut) : (s.answer o).cap = s.cap := rfl
@[simp] theorem State.answer_capN (o : HostOut) : (s.answer o).capN = s.capN := rfl
@[simp] theorem State.answer_capArmed (o : HostOut) : (s.answer o).capArmed = s.capArmed := rfl
@[simp] theorem State.answer_txq (o : HostOut) : (s.answer o).txq = s.txq := rfl
@[simp] theorem State.answer_rxq (o : HostOut) : (s.answer o).rxq = s.rxq := rfl
@[simp] theorem State.answer_nowMs (o : HostOut) : (s.answer o).nowMs = s.nowMs := rfl
@[simp] theorem State.answer_seqPc (o : HostOut) : (s.answer o).seqPc = s.seqPc := rfl
@[simp] theorem State.answer_buffer (o : HostOut) : (s.answer o).buffer = s.buffer := rfl
@[simp] theorem State.answer_hostOut (o : HostOut) : (s.answer o).hostOut = o := rfl
@[simp] theorem State.answer_pending (o : HostOut) : (s.answer o).pending = s.pending := rfl
@[simp] theorem State.answer_draws (o : HostOut) : (s.answer o).draws = s.draws := rfl

/-! ### `raise` -/

@[simp] theorem raise_crc7Acc (st : Status) : (raise st s).crc7Acc = s.crc7Acc := rfl
@[simp] theorem raise_crc16Lane (st : Status) : (raise st s).crc16Lane = s.crc16Lane := rfl
@[simp] theorem raise_crc16Match (st : Status) : (raise st s).crc16Match = s.crc16Match := rfl
@[simp] theorem raise_cuState (st : Status) : (raise st s).cuState = .idle := rfl
@[simp] theorem raise_cuCmd (st : Status) : (raise st s).cuCmd = s.cuCmd := rfl
@[simp] theorem raise_cuShape (st : Status) : (raise st s).cuShape = s.cuShape := rfl
@[simp] theorem raise_cuStart (st : Status) : (raise st s).cuStart = s.cuStart := rfl
@[simp] theorem raise_cuStatus (st : Status) : (raise st s).cuStatus = st := rfl
@[simp] theorem raise_cuResp32 (st : Status) : (raise st s).cuResp32 = s.cuResp32 := rfl
@[simp] theorem raise_respBuf (st : Status) : (raise st s).respBuf = s.respBuf := rfl
@[simp] theorem raise_cap (st : Status) : (raise st s).cap = s.cap := rfl
@[simp] theorem raise_capN (st : Status) : (raise st s).capN = s.capN := rfl
@[simp] theorem raise_capArmed (st : Status) : (raise st s).capArmed = s.capArmed := rfl
@[simp] theorem raise_txq (st : Status) : (raise st s).txq = s.txq := rfl
@[simp] theorem raise_rxq (st : Status) : (raise st s).rxq = s.rxq := rfl
@[simp] theorem raise_nowMs (st : Status) : (raise st s).nowMs = s.nowMs := rfl
@[simp] theorem raise_seqPc (st : Status) : (raise st s).seqPc = s.seqPc := rfl
@[simp] theorem raise_buffer (st : Status) : (raise st s).buffer = s.buffer := rfl
@[simp] theorem raise_hostOut (st : Status) : (raise st s).hostOut = s.hostOut := rfl
@[simp] theorem raise_pending (st : Status) : (raise st s).pending = s.pending := rfl
@[simp] theorem raise_draws (st : Status) : (raise st s).draws = s.draws := rfl

/-! ### `State.anyResp32` -/

@[simp] theorem State.anyResp32_crc7Acc : (s.anyResp32).crc7Acc = s.crc7Acc := rfl
@[simp] theorem State.anyResp32_crc16Lane : (s.anyResp32).crc16Lane = s.crc16Lane := rfl
@[simp] theorem State.anyResp32_crc16Match : (s.anyResp32).crc16Match = s.crc16Match := rfl
@[simp] theorem State.anyResp32_cuState : (s.anyResp32).cuState = s.cuState := rfl
@[simp] theorem State.anyResp32_cuCmd : (s.anyResp32).cuCmd = s.cuCmd := rfl
@[simp] theorem State.anyResp32_cuShape : (s.anyResp32).cuShape = s.cuShape := rfl
@[simp] theorem State.anyResp32_cuStart : (s.anyResp32).cuStart = s.cuStart := rfl
@[simp] theorem State.anyResp32_cuStatus : (s.anyResp32).cuStatus = s.cuStatus := rfl
@[simp] theorem State.anyResp32_cuResp32 : (s.anyResp32).cuResp32 = Config.freeWord s.draws := rfl
@[simp] theorem State.anyResp32_respBuf : (s.anyResp32).respBuf = s.respBuf := rfl
@[simp] theorem State.anyResp32_cap : (s.anyResp32).cap = s.cap := rfl
@[simp] theorem State.anyResp32_capN : (s.anyResp32).capN = s.capN := rfl
@[simp] theorem State.anyResp32_capArmed : (s.anyResp32).capArmed = s.capArmed := rfl
@[simp] theorem State.anyResp32_txq : (s.anyResp32).txq = s.txq := rfl
@[simp] theorem State.anyResp32_rxq : (s.anyResp32).rxq = s.rxq := rfl
@[simp] theorem State.anyResp32_nowMs : (s.anyResp32).nowMs = s.nowMs := rfl
@[simp] theorem State.anyResp32_seqPc : (s.anyResp32).seqPc = s.seqPc := rfl
@[simp] theorem State.anyResp32_buffer : (s.anyResp32).buffer = s.buffer := rfl
@[simp] theorem State.anyResp32_hostOut : (s.anyResp32).hostOut = s.hostOut := rfl
@[simp] theorem State.anyResp32_pending : (s.anyResp32).pending = s.pending := rfl
@[simp] theorem State.anyResp32_draws : (s.anyResp32).draws = s.draws + 1 := rfl

/-! ### `State.anyRespBuf` -/

@[simp] theorem State.anyRespBuf_crc7Acc : (s.anyRespBuf).crc7Acc = s.crc7Acc := rfl
@[simp] theorem State.anyRespBuf_crc16Lane : (s.anyRespBuf).crc16Lane = s.crc16Lane := rfl
@[simp] theorem State.anyRespBuf_crc16Match : (s.anyRespBuf).crc16Match = s.crc16Match := rfl
@[simp] theorem State.anyRespBuf_cuState : (s.anyRespBuf).cuState = s.cuState := rfl
@[simp] theorem State.anyRespBuf_cuCmd : (s.anyRespBuf).cuCmd = s.cuCmd := rfl
@[simp] theorem State.anyRespBuf_cuShape : (s.anyRespBuf).cuShape = s.cuShape := rfl
@[simp] theorem State.anyRespBuf_cuStart : (s.anyRespBuf).cuStart = s.cuStart := rfl
@[simp] theorem State.anyRespBuf_cuStatus : (s.anyRespBuf).cuStatus = s.cuStatus := rfl
@[simp] theorem State.anyRespBuf_cuResp32 : (s.anyRespBuf).cuResp32 = s.cuResp32 := rfl
@[simp] theorem State.anyRespBuf_respBuf : (s.anyRespBuf).respBuf = freeBuf s.draws := rfl
@[simp] theorem State.anyRespBuf_cap : (s.anyRespBuf).cap = s.cap := rfl
@[simp] theorem State.anyRespBuf_capN : (s.anyRespBuf).capN = s.capN := rfl
@[simp] theorem State.anyRespBuf_capArmed : (s.anyRespBuf).capArmed = s.capArmed := rfl
@[simp] theorem State.anyRespBuf_txq : (s.anyRespBuf).txq = s.txq := rfl
@[simp] theorem State.anyRespBuf_rxq : (s.anyRespBuf).rxq = s.rxq := rfl
@[simp] theorem State.anyRespBuf_nowMs : (s.anyRespBuf).nowMs = s.nowMs := rfl
@[simp] theorem State.anyRespBuf_seqPc : (s.anyRespBuf).seqPc = s.seqPc := rfl
@[simp] theorem State.anyRespBuf_buffer : (s.anyRespBuf).buffer = s.buffer := rfl
@[simp] theorem State.anyRespBuf_hostOut : (s.anyRespBuf).hostOut = s.hostOut := rfl
@[simp] theorem State.anyRespBuf_pending : (s.anyRespBuf).pending = s.pending := rfl
@[simp] theorem State.anyRespBuf_draws : (s.anyRespBuf).draws = s.draws + 16 := rfl

/-! ### `captureWord` -/

@[simp] theorem captureWord_crc7Acc : (captureWord s).crc7Acc = s.crc7Acc := rfl
@[simp] theorem captureWord_crc16Lane : (captureWord s).crc16Lane = s.crc16Lane := rfl
@[simp] theorem captureWord_crc16Match : (captureWord s).crc16Match = s.crc16Match := rfl
@[simp] theorem captureWord_cuState : (captureWord s).cuState = s.cuState := rfl
@[simp] theorem captureWord_cuCmd : (captureWord s).cuCmd = s.cuCmd := rfl
@[simp] theorem captureWord_cuShape : (captureWord s).cuShape = s.cuShape := rfl
@[simp] theorem captureWord_cuStart : (captureWord s).cuStart = s.cuStart := rfl
@[simp] theorem captureWord_cuStatus : (captureWord s).cuStatus = s.cuStatus := rfl
@[simp] theorem captureWord_cuResp32 : (captureWord s).cuResp32 = s.cuResp32 := rfl
@[simp] theorem captureWord_respBuf : (captureWord s).respBuf = s.respBuf := rfl
@[simp] theorem captureWord_cap : (captureWord s).cap = s.cap.setIfInBounds s.capN.toNat (s.rxq.headD 0) := rfl
@[simp] theorem captureWord_capN : (captureWord s).capN = s.capN + 1 := rfl
@[simp] theorem captureWord_capArmed : (captureWord s).capArmed = s.capArmed := rfl
@[simp] theorem captureWord_txq : (captureWord s).txq = s.txq := rfl
@[simp] theorem captureWord_rxq : (captureWord s).rxq = s.rxq.drop 1 := rfl
@[simp] theorem captureWord_nowMs : (captureWord s).nowMs = s.nowMs := rfl
@[simp] theorem captureWord_seqPc : (captureWord s).seqPc = s.seqPc := rfl
@[simp] theorem captureWord_buffer : (captureWord s).buffer = s.buffer := rfl
@[simp] theorem captureWord_hostOut : (captureWord s).hostOut = s.hostOut := rfl
@[simp] theorem captureWord_pending : (captureWord s).pending = s.pending := rfl
@[simp] theorem captureWord_draws : (captureWord s).draws = s.draws := rfl

/-! ### `State.writeResp32` -/

@[simp] theorem State.writeResp32_crc7Acc (o : Option Word) : (s.writeResp32 o).crc7Acc = s.crc7Acc := by cases o <;> rfl
@[simp] theorem State.writeResp32_crc16Lane (o : Option Word) : (s.writeResp32 o).crc16Lane = s.crc16Lane := by cases o <;> rfl
@[simp] theorem State.writeResp32_crc16Match (o : Option Word) : (s.writeResp32 o).crc16Match = s.crc16Match := by cases o <;> rfl
@[simp] theorem State.writeResp32_cuState (o : Option Word) : (s.writeResp32 o).cuState = s.cuState := by cases o <;> rfl
@[simp] theorem State.writeResp32_cuCmd (o : Option Word) : (s.writeResp32 o).cuCmd = s.cuCmd := by cases o <;> rfl
@[simp] theorem State.writeResp32_cuShape (o : Option Word) : (s.writeResp32 o).cuShape = s.cuShape := by cases o <;> rfl
@[simp] theorem State.writeResp32_cuStart (o : Option Word) : (s.writeResp32 o).cuStart = s.cuStart := by cases o <;> rfl
@[simp] theorem State.writeResp32_cuStatus (o : Option Word) : (s.writeResp32 o).cuStatus = s.cuStatus := by cases o <;> rfl
@[simp] theorem State.writeResp32_respBuf (o : Option Word) : (s.writeResp32 o).respBuf = s.respBuf := by cases o <;> rfl
@[simp] theorem State.writeResp32_cap (o : Option Word) : (s.writeResp32 o).cap = s.cap := by cases o <;> rfl
@[simp] theorem State.writeResp32_capN (o : Option Word) : (s.writeResp32 o).capN = s.capN := by cases o <;> rfl
@[simp] theorem State.writeResp32_capArmed (o : Option Word) : (s.writeResp32 o).capArmed = s.capArmed := by cases o <;> rfl
@[simp] theorem State.writeResp32_txq (o : Option Word) : (s.writeResp32 o).txq = s.txq := by cases o <;> rfl
@[simp] theorem State.writeResp32_rxq (o : Option Word) : (s.writeResp32 o).rxq = s.rxq := by cases o <;> rfl
@[simp] theorem State.writeResp32_nowMs (o : Option Word) : (s.writeResp32 o).nowMs = s.nowMs := by cases o <;> rfl
@[simp] theorem State.writeResp32_seqPc (o : Option Word) : (s.writeResp32 o).seqPc = s.seqPc := by cases o <;> rfl
@[simp] theorem State.writeResp32_buffer (o : Option Word) : (s.writeResp32 o).buffer = s.buffer := by cases o <;> rfl
@[simp] theorem State.writeResp32_hostOut (o : Option Word) : (s.writeResp32 o).hostOut = s.hostOut := by cases o <;> rfl
@[simp] theorem State.writeResp32_pending (o : Option Word) : (s.writeResp32 o).pending = s.pending := by cases o <;> rfl

@[simp] theorem State.writeResp32_some_cuResp32 (w : Word) : (s.writeResp32 (some w)).cuResp32 = w := rfl

end Sys2Proof.Machine
end

