-- ==== Sys2Proof/Laws/Ops.lean ====
section
/-! SUPPORT. What each shared operation and each agent's step can do: if it answers a next state, then which, and under what
condition. Later proofs cite these and do not unfold the operations. -/

namespace Sys2Proof.Machine

variable {s t : State}

theorem Result.andThen_next {r : Result} {f : State → Result} :
    r.andThen f = .next t ↔ ∃ u, r = .next u ∧ f u = .next t := by
  cases r <;> simp [Result.andThen]

theorem envTxPop_next : envTxPop s = .next t ↔ ∃ w rest, s.txq = w :: rest ∧ t = { s with txq := rest } := by
  unfold envTxPop
  cases h : s.txq with
  | nil => simp
  | cons w rest => simp [eq_comm]

theorem envRxPush_next {w : Word} :
    envRxPush w s = .next t ↔ s.rxq.length < Config.rxqDepth ∧ t = { s with rxq := s.rxq ++ [w] } := by
  unfold envRxPush
  by_cases h : s.rxq.length < Config.rxqDepth <;> simp [h, eq_comm]

theorem captureEnabled_iff :
    captureEnabled s = true ↔ s.capArmed = true ∧ s.capN.toNat < 5 ∧ 0 < s.rxq.length := by
  simp only [captureEnabled, Bool.and_eq_true, decide_eq_true_eq, and_assoc]
  exact Iff.rfl

theorem completeEnabled_iff : completeEnabled s = true ↔ s.cuState = .wait ∧ replyReady s = true := by
  simp [completeEnabled]

theorem timeoutEnabled_iff :
    timeoutEnabled s = true ↔ s.cuState = .wait ∧ replyReady s = false ∧ deadlinePassed s = true := by
  simp [timeoutEnabled, and_assoc]

theorem capMove_next : capMove s = .next t ↔ captureEnabled s = true ∧ t = captureWord s := by
  unfold capMove
  cases captureEnabled s <;> simp [eq_comm]

theorem cuTimeout_next : cuTimeout s = .next t ↔ timeoutEnabled s = true ∧ t = recoverFromTimeout s := by
  unfold cuTimeout
  cases timeoutEnabled s <;> simp [eq_comm]

/-- The ending CU_COMPLETE gives a shape. -/
def completed (s : State) : State :=
  match s.cuShape with
  | .none => completeNone s
  | .r1 => completeR1 s
  | .r2 => completeR2 s
  | .r3 => completeR3 s

theorem cuComplete_next : cuComplete s = .next t ↔ completeEnabled s = true ∧ t = completed s := by
  unfold cuComplete completed
  cases completeEnabled s <;> cases s.cuShape <;> simp [eq_comm]

theorem frameCommand_some_iff {cmd : BitVec 6} {arg : Word} {rbits : Nat} :
    (∃ w, frameCommand cmd arg rbits = some w) ↔ rbits = 0 ∨ rbits = 48 ∨ rbits = 136 := by
  unfold frameCommand rlenOf
  by_cases h0 : rbits = 0
  · simp [h0]
  · by_cases h1 : rbits = 48 ∨ rbits = 136 <;> simp_all

/-- SEND_COMMAND in its precondition: everything it does. -/
theorem sendCommand_ok {cmd : BitVec 6} {arg : Word} {rbits : Nat} :
    sendCommand cmd arg rbits s = .ok t ↔
      s.cuState = .idle ∧ s.txq.length + 2 ≤ Config.txqDepth ∧
      ∃ w0 w1, frameCommand cmd arg rbits = some (w0, w1) ∧
        t = { s with rxq := [], txq := s.txq ++ [w0, w1], cuStart := s.nowMs } := by
  unfold sendCommand
  cases hs : s.cuState
  · by_cases hr : Config.txqDepth < s.txq.length + 2
    · simp [hr]
    · have hr' : s.txq.length + 2 ≤ Config.txqDepth := by omega
      cases hf : frameCommand cmd arg rbits with
      | none => simp [hr]
      | some w => simp [hr, hr', Prod.ext_iff, eq_comm]
  · simp

/-- A COMMAND operation in its precondition: everything it does. -/
theorem issueCommand_next {cmd : BitVec 6} {arg : Word} {rbits : Nat} {shape : Shape} :
    issueCommand cmd arg rbits shape s = .next t ↔
      s.cuState = .idle ∧ s.txq.length + 2 ≤ Config.txqDepth ∧
      ∃ w0 w1, frameCommand cmd arg rbits = some (w0, w1) ∧
        t = { s with
          rxq := [], txq := s.txq ++ [w0, w1], cuStart := s.nowMs, cuCmd := cmd, cuShape := shape, cuStatus := .ok,
          cuState := .wait, hostOut := .nothing } := by
  unfold issueCommand
  cases h : sendCommand cmd arg rbits s with
  | error r =>
    refine ⟨by simp, ?_⟩
    rintro ⟨h1, h2, w0, w1, h3, -⟩
    rw [sendCommand_ok.2 ⟨h1, h2, w0, w1, h3, rfl⟩] at h
    cases h
  | ok u =>
    obtain ⟨h1, h2, w0, w1, h3, rfl⟩ := sendCommand_ok.1 h
    simp [h1, h2, h3, eq_comm]

theorem takeWord_next {w : Word} :
    takeWord w s = .next t ↔ ∃ rest, s.txq = w :: rest ∧ t = { s with txq := rest } := by
  unfold takeWord envTxPop
  cases h : s.txq with
  | nil => simp
  | cons a rest =>
    by_cases ha : a = w
    · simp [ha, eq_comm]
    · simp [ha]

/-- A push that CAPTURE may follow changes the queue, the capture file and its count, and nothing else. -/
theorem pushThenCapture_next {w : Word} (h : pushThenCapture w s = .next t) :
    ∃ rxq cap capN, t = { s with rxq := rxq, cap := cap, capN := capN } ∧ rxq.length ≤ Config.rxqDepth ∧
      (s.capN.toNat ≤ 5 → capN.toNat ≤ 5) := by
  obtain ⟨u, hu, ht⟩ := Result.andThen_next.1 h
  obtain ⟨hroom, rfl⟩ := envRxPush_next.1 hu
  unfold captureIfEnabled at ht
  cases hc : captureEnabled { s with rxq := s.rxq ++ [w] } with
  | false =>
    simp only [hc, cond_false] at ht
    cases ht
    exact ⟨_, _, _, rfl, by simp; omega, id⟩
  | true =>
    simp only [hc, cond_true] at ht
    obtain ⟨-, rfl⟩ := capMove_next.1 ht
    obtain ⟨-, hn, -⟩ := captureEnabled_iff.1 hc
    refine ⟨_, _, _, rfl, by simp; omega, fun _ => ?_⟩
    simp only [BitVec.toNat_add]
    have : s.capN.toNat < 5 := hn
    simp; omega

/-- Several such pushes. -/
theorem pushAll_next {ws : List Word} (h : pushAll ws s = .next t) (hr : s.rxq.length ≤ Config.rxqDepth) :
    ∃ rxq cap capN, t = { s with rxq := rxq, cap := cap, capN := capN } ∧ rxq.length ≤ Config.rxqDepth ∧
      (s.capN.toNat ≤ 5 → capN.toNat ≤ 5) := by
  induction ws generalizing s with
  | nil =>
    cases h
    exact ⟨_, _, _, rfl, hr, id⟩
  | cons w ws ih =>
    obtain ⟨u, hu, ht⟩ := Result.andThen_next.1 h
    obtain ⟨q, c, n, rfl, hq, hn⟩ := pushThenCapture_next hu
    obtain ⟨q', c', n', rfl, hq', hn'⟩ := ih ht hq
    exact ⟨_, _, _, rfl, hq', fun h5 => hn' (hn h5)⟩

end Sys2Proof.Machine
end

