-- ==== Sys2Proof/Laws/PerInstr.lean ====
section
/-! SUPPORT. A law of every instruction, by constructor: its frame carries the bits its row of spec/opcode_table.json
fixes. -/

namespace Sys2Proof.Laws.FixedBitsHold

open Sys2Proof Sys2Proof.Machine

/-- R90, R91: the `OPSEL` code of a row; the eleven format rows have none. -/
def opselOf : Instr → Option (BitVec 4)
  | .reserved0 => some 0x0
  | .crc7Clr => some 0x1
  | .crc7Byte _ => some 0x2
  | .crc7Rd => some 0x3
  | .crc16Clr => some 0x4
  | .crc16Word _ => some 0x5
  | .crc16Rd => some 0x6
  | .crc16Cmp _ => some 0x7
  | .commandR1 _ _ _ => some 0x8
  | .commandR2 _ _ => some 0x9
  | .commandR3 _ _ => some 0xA
  | .cuResult => some 0xB
  | .cuRdbuf _ => some 0xC
  | .reservedD => some 0xD
  | .reservedE => some 0xE
  | .reservedF => some 0xF
  | .cmd48 _ _ _ => none
  | .resp48 _ _ _ _ _ => none
  | .resp136 _ _ _ _ => none
  | .trailer _ _ _ _ => none
  | .seqW0 _ _ _ => none
  | .seqW1 _ _ _ => none
  | .rw0 _ _ => none
  | .rw1 _ _ _ _ => none
  | .rwdone _ => none
  | .capw03 _ => none
  | .capw4 _ _ _ => none

/-- R71, R75, R76, R90: what the frame of an instruction has fixed. -/
def Statement (i : Instr) : Prop :=
  match encode i with
  | .hostOp p => opselOf i = some p.opsel
  | .lineCmd48 v => opselOf i = none ∧ cmd48FixedOk v = true
  | .txFirst w => opselOf i = none ∧ seqW0FixedOk w = true
  | .txSecond w => opselOf i = none ∧ seqW1FixedOk w = true
  | .lineResp48 _ | .lineResp136 _ | .laneTrailer _ | .rxFirst _ | .rxSecond _ | .rxDone _ | .rxCapture _
  | .rxCaptureLast _ => opselOf i = none
  | .unformatted _ _ => False

theorem crc7Clr : Statement .crc7Clr := rfl
theorem crc7Byte (b : Byte) : Statement (.crc7Byte b) := rfl
theorem crc7Rd : Statement .crc7Rd := rfl
theorem crc16Clr : Statement .crc16Clr := rfl
theorem crc16Word (w : Word) : Statement (.crc16Word w) := rfl
theorem crc16Rd : Statement .crc16Rd := rfl
theorem crc16Cmp (e : BitVec 64) : Statement (.crc16Cmp e) := rfl
theorem commandR1 (cmd : BitVec 6) (arg : Word) (want : Bool) : Statement (.commandR1 cmd arg want) := rfl
theorem commandR2 (cmd : BitVec 6) (arg : Word) : Statement (.commandR2 cmd arg) := rfl
theorem commandR3 (cmd : BitVec 6) (arg : Word) : Statement (.commandR3 cmd arg) := rfl
theorem cuResult : Statement .cuResult := rfl
theorem cuRdbuf (k : BitVec 4) : Statement (.cuRdbuf k) := rfl
theorem reserved0 : Statement .reserved0 := rfl
theorem reservedD : Statement .reservedD := rfl
theorem reservedE : Statement .reservedE := rfl
theorem reservedF : Statement .reservedF := rfl
theorem cmd48 (index : BitVec 6) (arg : Word) (crc : BitVec 7) : Statement (.cmd48 index arg crc) :=
  ⟨rfl, packCmd48_fixed index arg crc⟩
theorem resp48 (start : BitVec 2) (index : BitVec 6) (payload : Word) (crc : BitVec 7) (endBit : BitVec 1) :
    Statement (.resp48 start index payload crc endBit) := rfl
theorem resp136 (marker : Byte) (payload : BitVec 120) (crc : BitVec 7) (endBit : BitVec 1) :
    Statement (.resp136 marker payload crc endBit) := rfl
theorem trailer (a b c d : BitVec 16) : Statement (.trailer a b c d) := rfl
theorem seqW0 (len : BitVec 8) (index : BitVec 6) (argHi : BitVec 16) : Statement (.seqW0 len index argHi) :=
  ⟨rfl, packSeqW0_fixed len index argHi⟩
theorem seqW1 (argLo : BitVec 16) (crc : BitVec 7) (rlen : BitVec 8) : Statement (.seqW1 argLo crc rlen) :=
  ⟨rfl, packSeqW1_fixed argLo crc rlen⟩
theorem rw0 (code : BitVec 8) (payload : BitVec 24) : Statement (.rw0 code payload) := rfl
theorem rw1 (filler : BitVec 16) (payload : BitVec 8) (crc : BitVec 7) (endBit : BitVec 1) :
    Statement (.rw1 filler payload crc endBit) := rfl
theorem rwdone (w : Word) : Statement (.rwdone w) := rfl
theorem capw03 (y : Word) : Statement (.capw03 y) := rfl
theorem capw4 (filler : BitVec 24) (crc : BitVec 7) (endBit : BitVec 1) : Statement (.capw4 filler crc endBit) := rfl

end Sys2Proof.Laws.FixedBitsHold
end

