-- ==== Sys2Proof/Tests/Slice0.lean ====
section
/-! SUPPORT. Small tests. Expected values are those of spec/95_test_vectors.md (named in each comment) or words written out
from the encodings of spec/30_encoding.md. -/

namespace Sys2Proof.Tests

-- One test after another: many kernel evaluations at once need more threads than the check's memory limit allows.
set_option Elab.async false

open Sys2Proof Sys2Proof.Machine

/-- Whether an outcome is a next state with a property. -/
def nextWith (r : Result) (p : State → Bool) : Bool :=
  match r with
  | .next s => p s
  | .fault _ => false
  | .refused _ => false

/-- Whether an outcome is this refusal. -/
def refusedWith (r : Result) (e : Refusal) : Bool :=
  match r with
  | .next _ => false
  | .fault _ => false
  | .refused e' => decide (e = e')

/-- A state that waits for a reply of this shape, issued at time 0. -/
def waiting (shape : Shape) (cmd : BitVec 6) (rxq : List Word) : State :=
  { State.reset with cuState := .wait, cuShape := shape, cuCmd := cmd, rxq := rxq, capArmed := shape == .r2 }

/-- The lanes after these words. -/
def lanesAfter (ws : List Word) : BitVec 64 := crc16FourLane ws ws.length

/-! ### Well-formedness: one ill-formed term for each check -/

theorem test_wf_cmd48 : Instr.wf (.cmd48 8#6 0x1AA#32 0x43#7) = true := by decide +kernel

theorem test_wf_cmd48_crc_refused : Instr.wf (.cmd48 8#6 0x1AA#32 0x42#7) = false := by decide +kernel

theorem test_wf_seqW0_len_refused : Instr.wf (.seqW0 46#8 8#6 0#16) = false := by decide +kernel

theorem test_wf_seqW1_rlen_refused : Instr.wf (.seqW1 0x01AA#16 0x43#7 0x30#8) = false := by decide +kernel

/-! ### Decoding words written out from the encodings -/

-- R90: the OPSEL column
theorem test_decode_opsel :
    (List.range 16).map (decodeTableWord 8) =
      [some .reserved0, some .crc7Clr, some (.crc7Byte 0), some .crc7Rd, some .crc16Clr, some (.crc16Word 0),
       some .crc16Rd, some (.crc16Cmp 0), some (.commandR1 0 0 false), some (.commandR2 0 0), some (.commandR3 0 0),
       some .cuResult, some (.cuRdbuf 0), some .reservedD, some .reservedE, some .reservedF] := by decide +kernel

-- R71, vector F2: 48 00 00 01 AA 87 (0 1 001000, argument 1AA, CRC7 43, end bit 1)
theorem test_decode_cmd48 :
    decode (.lineCmd48 0b01_001000_00000000000000000000000110101010_1000011_1#48) =
      .ok (.cmd48 8#6 0x1AA#32 0x43#7) := by decide +kernel

-- R71: direction bit 0 is no command packet
theorem test_decode_cmd48_direction :
    decode (.lineCmd48 0b00_001000_00000000000000000000000110101010_1000011_1#48) = .error .fixedBit := by decide +kernel

-- R72, vector G1: 08 00 00 01 AA 13
theorem test_decode_resp48 :
    decode (.lineResp48 0x08000001AA13#48) = .ok (.resp48 0#2 8#6 0x1AA#32 0x09#7 1#1) := by decide +kernel

-- R73, vector J1
theorem test_decode_resp136 :
    decode (.lineResp136 0x3F03534453433136478012345678012A15#136) =
      .ok (.resp136 0x3F#8 0x03534453433136478012345678012A#120 0x0A#7 1#1) := by decide +kernel

-- R74, vector C2: wire 444D234456F4444C is packed 1021 F3FF 0C60 14A0
theorem test_decode_trailer :
    decode (.laneTrailer 0x444D234456F4444C#64) = .ok (.trailer 0x1021#16 0xF3FF#16 0x0C60#16 0x14A0#16) := by decide +kernel

-- R75, vector F4 with CMD_LEN_CODE 48: 30694010 (00110000 01 101001 0100000000010000)
theorem test_decode_seqW0 :
    decode (.txFirst 0b00110000_0_1_101001_0100000000010000#32) = .ok (.seqW0 48#8 41#6 0x4010#16) := by decide +kernel

-- R76, vector F2: 01AA872F (argument low half 01AA, CRC7 43, end bit 1, RLEN 2F)
theorem test_decode_seqW1 :
    decode (.txSecond 0b0000000110101010_1000011_1_00101111#32) = .ok (.seqW1 0x01AA#16 0x43#7 0x2F#8) := by decide +kernel

-- R77, program P1: 08000001 and FFFFAA13
theorem test_decode_rw :
    decode (.rxFirst 0x08000001#32) = .ok (.rw0 0x08#8 0x000001#24) ∧
    decode (.rxSecond 0xFFFFAA13#32) = .ok (.rw1 0xFFFF#16 0xAA#8 0x09#7 1#1) := by decide +kernel

-- R78, R79: RWDONE, CAPW0 and CAPW4 of vector J1
theorem test_decode_done_and_capture :
    decode (.rxDone 0xDEADBEEF#32) = .ok (.rwdone 0xDEADBEEF#32) ∧
    decode (.rxCapture 0x3F035344#32) = .ok (.capw03 0x3F035344#32) ∧
    decode (.rxCaptureLast 0x00000015#32) = .ok (.capw4 0#24 0x0A#7 1#1) := by decide +kernel

/-! ### Checksums (L2.1, L2.2) -/

-- A7: the check value of CRC7
theorem test_crc7_check : crc7 [0x31, 0x32, 0x33, 0x34, 0x35, 0x36, 0x37, 0x38, 0x39] = 0xEA#8 := by decide +kernel

-- A9
theorem test_crc7_cmd8 : crc7 [0x48, 0x00, 0x00, 0x01, 0xAA] = 0x86#8 := by decide +kernel

-- C2 and C4
theorem test_crc16_c2 : lanesAfter [0x78563412] = 0x1021F3FF0C6014A0#64 := by decide +kernel

theorem test_crc16_c4 : lanesAfter [0x12345678, 0x9ABCDEF0] = 0x5BF83596B0E3E615#64 := by decide +kernel

-- C4: the wire view and back
theorem test_crc16_wire : crc16ToWire 0x5BF83596B0E3E615#64 = 0x397E859CEAAD8563#64 := by decide +kernel

theorem test_crc16_fromWire : crc16FromWire 0x397E859CEAAD8563#64 = 0x5BF83596B0E3E615#64 := by decide +kernel

-- program P3: the trailer words
theorem test_trailer_words :
    trailerWords 0x5BF83596B0E3E615#64 = [0x397E859C#32, 0xEAAD8563#32, 0xFFFFFFFF#32] := by decide +kernel

-- C9 by the word-parallel form
theorem test_crc16_wordWire :
    [0xEFBEADDE, 0x67452301, 0xEFCDAB89, 0xAA55FF00].foldl crc16x4WordWire 0 = 0x1A448BF24DE6EE73#64 := by decide +kernel

-- F2, F5, F14: the packets; F2, F5, F1: the second words
theorem test_frame_packets :
    commandPacket 8 0x1AA = 0x48000001AA87#48 ∧ commandPacket 2 0 = 0x42000000004D#48 ∧
    commandPacket 63 0xFFFFFFFF = 0x7FFFFFFFFF19#48 := by decide +kernel

theorem test_frame_second_words :
    (frameCommand 8 0x1AA 48).map Prod.snd = some 0x01AA872F#32 ∧
    (frameCommand 2 0 136).map Prod.snd = some 0x00004D87#32 ∧
    (frameCommand 0 0 0).map Prod.snd = some 0x00009500#32 := by decide +kernel

-- R92
theorem test_frame_refused : [1, 47, 137].map (frameCommand 8 0) = [none, none, none] := by decide +kernel

/-! ### The operations of the units -/

-- R106: from 58, CRC7_BYTE 00 gives 6A
theorem test_crc7Byte :
    nextWith (exec (.crc7Byte 0x00) { State.reset with crc7Acc := 0x58 }) (fun t => t.crc7Acc == 0x6A#8) = true := by decide +kernel

theorem test_crc7Clr :
    nextWith (exec .crc7Clr { State.reset with crc7Acc := 0x58 }) (fun t => t.crc7Acc == 0x00#8) = true := by decide +kernel

theorem test_crc7Rd :
    nextWith (exec .crc7Rd { State.reset with crc7Acc := 0x86 }) (fun t => t.hostOut == .crc7 0x86#8) = true := by decide +kernel

-- R131
theorem test_crc16Word :
    nextWith (exec (.crc16Word 0x78563412) State.reset)
      (fun t => t.crc16Lane == ⟨0x1021, 0xF3FF, 0x0C60, 0x14A0⟩) = true := by decide +kernel

-- R132, R133 on the lanes of R131
theorem test_crc16Rd :
    nextWith (exec .crc16Rd { State.reset with crc16Lane := ⟨0x1021, 0xF3FF, 0x0C60, 0x14A0⟩ })
      (fun t => t.hostOut == .crc16 0x1021F3FF0C6014A0#64) = true := by decide +kernel

theorem test_crc16Cmp_equal :
    nextWith (exec (.crc16Cmp 0x1021F3FF0C6014A0#64) { State.reset with crc16Lane := ⟨0x1021, 0xF3FF, 0x0C60, 0x14A0⟩ })
      (fun t => t.crc16Match == 1 && t.hostOut == .cmpMatch 1) = true := by decide +kernel

theorem test_crc16Cmp_differs :
    nextWith (exec (.crc16Cmp 0x1021F3FF0C6014A1#64) { State.reset with crc16Lane := ⟨0x1021, 0xF3FF, 0x0C60, 0x14A0⟩ })
      (fun t => t.crc16Match == 0) = true := by decide +kernel

-- program P3 step 7: a corrupted trailer reaches the HOST, which compares it; R23: only the CRC16_CMP writes the flag
theorem test_trailer_corrupted :
    nextWith (presentFrame (.laneTrailer 0x397E859CEAAD8562#64)
      { State.reset with crc16Lane := ⟨0x5BF8, 0x3596, 0xB0E3, 0xE615⟩, crc16Match := 1 })
      (fun t => t.hostOut == .trailer 0x5BF83596B0E3E614 && t.crc16Match == 1 &&
        nextWith (exec (.crc16Cmp 0x5BF83596B0E3E614) t) (fun u => u.crc16Match == 0)) = true := by decide +kernel

-- R170: COMMAND_R1 8, 1AA, 1 pushes CMD_LEN_CODE ‖ 480000 and 01AA872F
theorem test_commandR1 :
    nextWith (exec (.commandR1 8 0x1AA true) { State.reset with nowMs := 0x3E8, rxq := [0x55] })
      (fun t => t.txq.length == 2 && t.txq.getD 1 0 == 0x01AA872F#32 &&
        t.cuStart == 0x3E8#32 && t.cuShape == .r1 && t.cuState == .wait && t.rxq == []) = true := by decide +kernel

-- F1: command 0, no response
theorem test_commandR1_noResponse :
    nextWith (exec (.commandR1 0 0 false) State.reset)
      (fun t => t.txq.getD 1 0 == 0x00009500#32 && t.cuShape == .none) = true := by decide +kernel

-- R172: COMMAND_R2 2, 0 pushes .. 420000 and 00004D87
theorem test_commandR2 :
    nextWith (exec (.commandR2 2 0) { State.reset with capN := 5 })
      (fun t => t.txq.getD 1 0 == 0x00004D87#32 && t.capArmed && t.capN == 0 && t.cuShape == .r2) = true := by decide +kernel

-- R174: COMMAND_R3 41, 40100000 pushes .. 694010 and 0000CD2F
theorem test_commandR3 :
    nextWith (exec (.commandR3 41 0x40100000) State.reset)
      (fun t => t.txq.getD 1 0 == 0x0000CD2F#32 && t.cuShape == .r3) = true := by decide +kernel

-- X2, X3
theorem test_command_inFlight :
    refusedWith (exec (.commandR1 8 0 true) (waiting .r1 8 [])) .commandInFlight = true := by decide +kernel

theorem test_command_noRoom :
    refusedWith (exec (.commandR3 8 0) { State.reset with txq := [1, 2, 3] }) .txqNoRoom = true := by decide +kernel

-- R176: the result of the CMD8 exchange
theorem test_cuResult :
    nextWith (exec .cuResult { State.reset with cuResp32 := 0x1AA })
      (fun t => t.hostOut == .result 0 0 0x1AA#32) = true := by decide +kernel

-- R177, program P2: CU_RDBUF 15 returns 15
theorem test_cuRdbuf :
    nextWith (exec (.cuRdbuf 15) { State.reset with respBuf := respBufOfRsp136 0x3F03534453433136478012345678012A15#136 })
      (fun t => t.hostOut == .respByte 0x15#8) = true := by decide +kernel

-- X1
theorem test_reserved :
    [Instr.reserved0, .reservedD, .reservedE, .reservedF].map (fun i => refusedWith (exec i State.reset)
      (.reservedOpsel (if i = .reserved0 then 0 else if i = .reservedD then 0xD else if i = .reservedE then 0xE else 0xF)))
      = [true, true, true, true] := by decide +kernel

/-! ### The units of the wire and the queues -/

theorem test_seqW0_pop :
    nextWith (exec (.seqW0 48 8 0) { State.reset with txq := [0x30480000, 0x01AA872F] })
      (fun t => t.txq == [0x01AA872F#32]) = true := by decide +kernel

theorem test_seqW1_notAtHead :
    refusedWith (exec (.seqW1 0x01AA 0x43 0x2F) { State.reset with txq := [0x30480000, 0x01AA872F] })
      .notAtTxqHead = true := by decide +kernel

theorem test_cmd48_pop :
    nextWith (exec (.cmd48 8 0x1AA 0x43) { State.reset with txq := [0x30480000, 0x01AA872F, 7] })
      (fun t => t.txq == [7#32]) = true := by decide +kernel

theorem test_rw1_push :
    nextWith (exec (.rw1 0xFFFF 0xAA 0x09 1) (waiting .r1 8 [0x08000001]))
      (fun t => t.rxq == [0x08000001#32, 0xFFFFAA13#32]) = true := by decide +kernel

-- R59: RXQ full
theorem test_rw0_full :
    refusedWith (exec (.rw0 8 1) (waiting .r1 8 [1, 2, 3, 4])) (.notEnabled .envRxPush) = true := by decide +kernel

theorem test_resp48_push :
    nextWith (exec (.resp48 0 8 0x1AA 0x09 1) (waiting .r1 8 []))
      (fun t => t.rxq.length == 2 && t.rxq.getD 0 0 == 0x08000001#32) = true := by decide +kernel

-- program P2: the five words end in CAP
theorem test_resp136_captured :
    nextWith (exec (.resp136 0x3F 0x03534453433136478012345678012A 0x0A 1) (waiting .r2 2 []))
      (fun t => t.capN == 5 && t.rxq == [] && t.cap[0] == 0x3F035344#32 && t.cap[3] == 0x5678012A#32) = true := by decide +kernel

theorem test_resp136_unarmed :
    refusedWith (exec (.resp136 0x3F 0 0 1) (waiting .r1 2 [])) (.notEnabled .envRxPush) = true := by decide +kernel

theorem test_rwdone_push :
    nextWith (exec (.rwdone 0xDEADBEEF) (waiting .none 0 [])) (fun t => t.rxq == [0xDEADBEEF#32]) = true := by decide +kernel

theorem test_capw_push :
    nextWith (Result.andThen (exec (.capw03 0x3F035344) (waiting .r2 2 [])) (exec (.capw4 0 0x0A 1)))
      (fun t => t.rxq == [0x3F035344#32, 0x00000015#32]) = true := by decide +kernel

/-! ### Decoders and the steps of CMDU (L2.4, L2.5) -/

-- G1, G2, G5, G6, G7, G9, G10
theorem test_decodeR1 :
    decodeR1 8 0x08000001AA13 = (.ok, some 0x1AA) ∧ decodeR1 8 0x08000001AA11 = (.responseCrc, none) ∧
    decodeR1 8 0x370000012083 = (.responseCode, none) ∧ decodeR1 41 0x3F80FF8000F1 = (.ok, some 0x80FF8000) ∧
    decodeR1 40 0x3F80FF8000F1 = (.responseCode, none) ∧ decodeR1 8 0x48000001AA87 = (.responseCode, none) ∧
    decodeR1 8 0x09000001AA11 = (.responseCrc, none) := by decide +kernel

-- J1, J3, J5, J6
theorem test_decodeR2 :
    (decodeR2 0x3F03534453433136478012345678012A15).1 = .ok ∧
    (decodeR2 0x3F03534453433136478012345678012A17).1 = .responseCrc ∧
    (decodeR2 0x0203534453433136478012345678012A15).1 = .responseCode ∧
    (decodeR2 0x0003534453433136478012345678012A17).1 = .responseCrc := by decide +kernel

-- H4
theorem test_decodeR3 : decodeR3 0xAB1234567800 = 0x12345678#32 := by decide +kernel

-- program P1, step 7
theorem test_complete_r1 :
    nextWith (cuComplete (waiting .r1 8 [0x08000001, 0xFFFFAA13]))
      (fun t => t.cuResp32 == 0x1AA#32 && t.cuStatus == .ok && t.cuState == .idle && t.rxq == []) = true := by decide +kernel

-- V10: a third word stays
theorem test_complete_r3 :
    nextWith (cuComplete (waiting .r3 41 [0x3F80FF80, 0xFF, 9]))
      (fun t => t.cuResp32 == 0x80FF8000#32 && t.cuStatus == .ok && t.rxq == [9#32]) = true := by decide +kernel

-- program P6, step 6
theorem test_complete_none :
    nextWith (cuComplete (waiting .none 0 [0xDEADBEEF])) (fun t => t.cuStatus == .ok && t.cuState == .idle && t.rxq == [])
      = true := by decide +kernel

-- program P2b
theorem test_complete_r2 :
    nextWith (cuComplete { waiting .r2 2 [] with
        capN := 5, cap := #v[0x02035344, 0x53433136, 0x47801234, 0x5678012A, 0x15] })
      (fun t => t.cuStatus == .responseCode && !t.capArmed && t.respBuf[0] == 0x03#8 && t.respBuf[15] == 0x15#8) = true := by decide +kernel

-- V7: CAP_MOVE is enabled, CMDU has no step
theorem test_capMove :
    nextWith (capMove { waiting .r2 2 [7, 8] with capN := 4 })
      (fun t => t.capN == 5 && t.cap[4] == 7#32 && t.rxq == [8#32]) = true ∧
    refusedWith (cuComplete { waiting .r2 2 [7] with capN := 4 }) (.notEnabled .cuComplete) = true := by decide +kernel

-- T4, T5, V4 (program P4)
theorem test_timeout :
    nextWith (cuTimeout { waiting .r1 17 [0x11000009] with cuStart := 0xFFFFFFFE, nowMs := 1 })
      (fun t => t.cuStatus == .responseTimeout && t.cuState == .idle && t.rxq == []) = true ∧
    refusedWith (cuTimeout { waiting .r1 17 [0x11000009] with cuStart := 0xFFFFFFFE, nowMs := 0 })
      (.notEnabled .cuTimeout) = true := by decide +kernel

-- V3: the reply wins
theorem test_reply_beats_deadline :
    refusedWith (cuTimeout { waiting .r1 17 [1, 2] with nowMs := 9 }) (.notEnabled .cuTimeout) = true := by decide +kernel

/-! ### The HOST's buffer, and steps -/

-- R51, vector C2: bytes 12 34 56 78 at ascending addresses
theorem test_crc16Mem :
    nextWith (perform (.crc16Mem 8 1) { State.reset with buffer := Memory.write [] 8 4 0x78563412 })
      (fun t => t.hostOut == .crc16 0x1021F3FF0C6014A0#64 && t.buffer == [(8, 0x12), (9, 0x34), (10, 0x56), (11, 0x78)])
      = true := by decide +kernel

-- R55
theorem test_crc16Mem_misaligned : refusedWith (perform (.crc16Mem 6 0) State.reset) (.misaligned 6) = true := by decide +kernel

theorem test_fetch_runs_first :
    nextWith (step (State.reset.withFetchWord 8 0x8)) (fun t => t.cuState == .wait && t.pending == []) = true ∧
    nextWith (step (State.reset.withFetchWord 32 0x00400000)) (fun t => t.txq == []) = true ∧
    nextWith (step (State.reset.withFetchWord 32 0x00000100)) (fun t => t.txq == []) = true := by decide +kernel

theorem test_fetch_runs_formats :
    nextWith (step (State.reset.withFetchWord 48 0x400000000095)) (fun t => t.txq == []) = true ∧
    nextWith (step (State.reset.withFetchWord 48 0x08000001AA13)) (fun t => t.rxq.length == 2) = true ∧
    nextWith (step (State.reset.withFetchWord 136 0x3F)) (fun t => t.capN == 5) = true := by decide +kernel

-- R270, R271: RESET in the middle of a command
theorem test_reset_event :
    nextWith (perform .resetEvent { waiting .r2 2 [1] with crc7Acc := 0x58, capN := 3 })
      (fun t => t.crc7Acc == 0 && t.cuState == .idle && t.rxq == [] && t.capN == 0 && !t.capArmed) = true := by decide +kernel

/-! ### Witnesses: for each statement of Certificates/Slice0/Obligations.lean with hypotheses, a state and operands that meet
them, clause by clause, at boundary values -/

/-- `CU_IDLE`, two words in `TXQ` (the most a COMMAND admits), stale words in `RXQ`. -/
def idleTwo : State := { State.reset with txq := [1, 2], rxq := [3, 4], nowMs := 0xFFFFFFFF }

/-- An R2 command that waits with one capture word to come and `RXQ` full. -/
def lastCapture : State := { waiting .r2 2 [1, 2, 3, 4] with capN := 4 }

/-- An R2 command whose five words are captured (vector J1). -/
def captured : State :=
  { waiting .r2 2 [] with capN := 5, cap := #v[0x3F035344, 0x53433136, 0x47801234, 0x5678012A, 0x15] }

/-- Ports with this select code and every operand port at its greatest value. -/
def portsAll (op : BitVec 4) : Ports :=
  { opsel := op, b := 0xFF, w := 0xFFFFFFFF, e := 0xFFFFFFFFFFFFFFFF, cmd := 63, arg := 0xFFFFFFFF, want := true, k := 15 }

theorem witness_EveryStepKeepsTheInvariants :
    lastCapture.Inv ∧ nextWith (step lastCapture) (fun t => t.capN == 5) = true ∧
    idleTwo.Inv ∧ nextWith (step idleTwo) (fun t => t.nowMs == 0) = true := by
  refine ⟨by constructor <;> decide, by decide +kernel, by constructor <;> decide, by decide +kernel⟩

theorem witness_EncodeInvertsDecodeOnFormats :
    [Frame.lineCmd48 0x48000001AA87, .lineResp48 0, .lineResp136 0, .laneTrailer 0, .txFirst 0x00400000, .txSecond 0x00000100,
      .rxFirst 0, .rxSecond 0, .rxDone 0, .rxCapture 0, .rxCaptureLast 0].map (fun f => (decode f).toOption.isSome) =
      List.replicate 11 true := by decide +kernel

theorem witness_StepRunsTheDecodedInstruction :
    (scheduleFirst (.hostOp { opsel := 1 }) State.reset).pending = .present (.hostOp { opsel := 1 }) :: [] ∧
    decode (.hostOp { opsel := 1 }) = .ok .crc7Clr ∧
    (scheduleFirst (.unformatted 3 0) State.reset).pending = .present (.unformatted 3 0) :: [] ∧
    decode (.unformatted 3 0) = .error .noFormat := by decide +kernel

theorem witness_PlacedWordRunsNext :
    decodeTableWord 8 0x1 = some .crc7Clr ∧ decodeTableWord 136 (2 ^ 136 - 1) = some (.resp136 0xFF (BitVec.allOnes 120) 0x7F 1) := by
  decide +kernel

-- the code clauses of Crc7ClrAndRd, Crc7ByteStepsTheAccumulator, Crc16ClrAndRd, Crc16WordAdvancesEachLane, Crc16CmpSetsMatch,
-- CommandR1AndR3Issue, CommandR2Issues, CuResultReturnsTheStatus, CuRdbufReturnsTheByte
theorem witness_selectCodes :
    [0x1, 0x2, 0x3, 0x4, 0x5, 0x6, 0x7, 0x8, 0x9, 0xA, 0xB, 0xC].map (fun op => decodePorts (portsAll op)) =
      [.crc7Clr, .crc7Byte 0xFF, .crc7Rd, .crc16Clr, .crc16Word 0xFFFFFFFF, .crc16Rd, .crc16Cmp 0xFFFFFFFFFFFFFFFF,
        .commandR1 63 0xFFFFFFFF true, .commandR2 63 0xFFFFFFFF, .commandR3 63 0xFFFFFFFF, .cuResult, .cuRdbuf 15] := by
  decide +kernel

theorem witness_Crc7ByteStepsTheAccumulator : (0xFE#8).getLsbD 0 = false ∧ (0x00#8).getLsbD 0 = false := by decide

-- Crc7IsLinear, Crc16IsLinear
theorem witness_linear :
    ([0x48, 0xFF] : List Byte).length = ([0x01, 0x80] : List Byte).length ∧
    ([0x12345678] : List Word).length = ([0xFFFFFFFF] : List Word).length := by decide

theorem witness_Crc7SeesEverySingleBit :
    0 < ([0x48, 0x00] : List Byte).length ∧ 1 < ([0x48, 0x00] : List Byte).length ∧ 0 < 8 ∧ 7 < 8 := by decide

theorem witness_Crc16CmpSetsMatch :
    0#64 = State.reset.crc16Lane.packed ∧ 1#64 ≠ State.reset.crc16Lane.packed ∧
    0x8000000000000000#64 ≠ State.reset.crc16Lane.packed := by decide

theorem witness_Crc16LanesAreIndependent :
    (∀ m < 8, (bswap32 0).getLsbD (4 * m + 3) = (bswap32 0x77777777).getLsbD (4 * m + 3)) ∧
    (∀ m < 8, (bswap32 0).getLsbD (4 * m + 2) = (bswap32 0xBBBBBBBB).getLsbD (4 * m + 2)) ∧
    (∀ m < 8, (bswap32 0).getLsbD (4 * m + 1) = (bswap32 0xDDDDDDDD).getLsbD (4 * m + 1)) ∧
    (∀ m < 8, (bswap32 0).getLsbD (4 * m) = (bswap32 0xEEEEEEEE).getLsbD (4 * m)) := by decide +kernel

-- misaligned at 1 and 3; no word and one word read; an address past the buffer's end
theorem witness_Crc16MemReadsTheBuffer :
    1 % 4 ≠ 0 ∧ 3 % 4 ≠ 0 ∧ (Memory.write [] 8 4 0x78563412).readWords 8 0 = .ok [] ∧
    (Memory.write [] 8 4 0x78563412).readWords 8 1 = .ok [0x78563412] ∧
    (Memory.write [] 8 4 0x78563412).readWords 8 2 = .error 12 ∧ 8 % 4 = 0 := by decide +kernel

theorem witness_BufferReadsWhatWasWritten : (7 < 8 ∨ 8 + 4 ≤ 7) ∧ (12 < 8 ∨ 8 + 4 ≤ 12) := by decide

-- CommandWordsHoldTheFields, FrameCommandIsInjective
theorem witness_frameCommand :
    [0, 48, 136].map (fun n => (frameCommand 63 0xFFFFFFFF n).isSome) = [true, true, true] ∧
    [1, 47, 49, 135, 137].map (fun n => (frameCommand 63 0xFFFFFFFF n).isSome) = [false, false, false, false, false] := by
  decide +kernel

-- CommandR1AndR3Issue, CommandR2Issues, StaleWordsAreNoReply, CommandRoundTrip, RegisterReadRoundTrip
theorem witness_commandIssue :
    idleTwo.cuState = .idle ∧ idleTwo.txq.length + 2 ≤ Config.txqDepth ∧
    [Instr.commandR1 63 0 true, .commandR1 63 0 false, .commandR2 63 0, .commandR3 63 0].map
      (fun i => Instr.isCommand i && nextWith (exec i idleTwo) (fun t => t.cuState == .wait && t.txq.length == 4)) =
      [true, true, true, true] := by decide +kernel

theorem witness_CommandRefusedOutsidePrecondition :
    (waiting .r1 8 []).cuState = .wait ∧ ({ State.reset with txq := [1, 2, 3] }).cuState = .idle ∧
    Config.txqDepth < ({ State.reset with txq := [1, 2, 3] }).txq.length + 2 := by decide

-- CuResultReturnsTheStatus, CuRdbufReturnsTheByte
theorem witness_readResult :
    State.reset.cuState = .idle ∧ lastCapture.cuState = .wait ∧ lastCapture.Inv ∧ (15#4).toNat < 16 ∧ (0#4).toNat < 16 :=
  ⟨by decide, by decide, by constructor <;> decide, by decide, by decide⟩

theorem witness_ReadsHaveNoSideEffects :
    Instr.cuResult ∈ [Instr.crc7Rd, .crc16Rd, .cuResult] ∧ ∃ k, Instr.cuRdbuf 15 = .cuRdbuf k := ⟨by decide, 15, rfl⟩

theorem witness_ReservedOpselIsRefused :
    [0x0, 0xD, 0xE, 0xF].map (fun op => refusedWith (presentFrame (.hostOp (portsAll op)) State.reset) (.reservedOpsel op)) =
      [true, true, true, true] := by decide +kernel

-- one word of room, and none
theorem witness_ReplyWordsEnterRxq :
    (waiting .r2 2 [1, 2, 3]).rxq.length < Config.rxqDepth ∧ Config.rxqDepth ≤ (waiting .r2 2 [1, 2, 3, 4]).rxq.length ∧
    [Instr.rw0 8 1, .rw1 0xFFFF 0xAA 9 1, .rwdone 5, .capw03 6, .capw4 0 0x0A 1].map
      (fun i => nextWith (exec i (waiting .r2 2 [1, 2, 3])) (fun t => t.rxq.length == 4)) =
      [true, true, true, true, true] := by decide +kernel

theorem witness_CommandWordsLeaveTxq :
    ({ State.reset with txq := [0x30480000, 9] }).txq = (48#8 ++ 0#1 ++ 1#1 ++ 8#6 ++ 0#16 : Word) :: [9] ∧
    ({ State.reset with txq := [0x01AA872F] }).txq = (0x01AA#16 ++ 0x43#7 ++ 1#1 ++ 0x2F#8 : Word) :: [] ∧
    (0x01AA872F : Word) ≠ 0x30480000 := by decide +kernel

theorem witness_CommandPacketGoesOut :
    (0x30480000#32).extractLsb' 0 24 ++ (0x01AA872F#32).extractLsb' 8 24 = packCmd48 8 0x1AA 0x43 ∧ State.reset.txq = [] ∧
    [Instr.commandR1 8 0x1AA true, .commandR2 8 0x1AA, .commandR3 8 0x1AA].map
      (fun i => nextWith (exec i State.reset) (fun t => t.txq.length == 2)) = [true, true, true] := by decide +kernel

theorem witness_Resp48ArrivesAsTwoWords : (waiting .r1 8 [1, 2]).rxq.length + 2 ≤ Config.rxqDepth := by decide

theorem witness_Resp136EndsInCapture :
    (waiting .r2 2 []).capArmed = true ∧ (waiting .r2 2 []).capN = 0 ∧ (waiting .r2 2 []).rxq = [] := by decide

theorem witness_CapMoveTakesOneWord :
    lastCapture.rxq = 1 :: [2, 3, 4] ∧ lastCapture.capN.toNat < 5 ∧ lastCapture.capArmed = true ∧
    (waiting .r1 8 [1]).rxq = 1 :: [] ∧ (waiting .r1 8 [1]).capArmed = false ∧ 5 ≤ ({ lastCapture with capN := 5 }).capN.toNat :=
  by decide

theorem witness_EnvironmentSteps :
    idleTwo.txq = 1 :: [2] ∧ State.reset.txq = [] ∧ (waiting .r1 8 [1, 2, 3]).rxq.length < Config.rxqDepth ∧
    Config.rxqDepth ≤ lastCapture.rxq.length := by decide

-- each shape at the last count that is not enough and the first that is; the deadline at 2 and 3 across the wrap
theorem witness_WaitPredicates :
    [replyReady (waiting .none 0 []), replyReady (waiting .none 0 [1]), replyReady (waiting .r1 0 [1]),
      replyReady (waiting .r1 0 [1, 2]), replyReady (waiting .r3 0 [1]), replyReady (waiting .r3 0 [1, 2]),
      replyReady lastCapture, replyReady captured] = [false, true, false, true, false, true, false, true] ∧
    deadlinePassed { State.reset with cuStart := 0xFFFFFFFE, nowMs := 0xFFFFFFFE + BitVec.ofNat 32 2 } = false ∧
    deadlinePassed { State.reset with cuStart := 0xFFFFFFFE, nowMs := 0xFFFFFFFE + BitVec.ofNat 32 3 } = true := by
  decide +kernel

theorem witness_ReplyBeatsDeadline :
    (waiting .r1 17 [1, 2]).cuState = .wait ∧ replyReady (waiting .r1 17 [1, 2]) = true ∧
    replyReady { waiting .none 0 [1] with nowMs := 3 } = true ∧ deadlinePassed { waiting .none 0 [1] with nowMs := 3 } = true ∧
    nextWith (perform .cuComplete { waiting .none 0 [1] with nowMs := 3 }) (fun _ => true) = true := by
  decide +kernel

-- G1; G2; G5; index 41 with another code
theorem witness_CompleteR1Decodes :
    (waiting .r1 8 [1, 2]).cuState = .wait ∧ (waiting .r1 8 [1, 2]).cuShape = .r1 ∧ (waiting .r1 8 [1, 2]).rxq = 1 :: 2 :: [] ∧
    crc7 (rsp48Head (0x08000001#32 ++ (0xFFFFAA13#32).extractLsb' 0 16)) = (0xFFFFAA13#32).extractLsb' 0 8 &&& 0xFE#8 ∧
    (0x08000001#32).extractLsb' 24 8 = (8#6).setWidth 8 ∧
    crc7 (rsp48Head (0x08000001#32 ++ (0xAA11#32).extractLsb' 0 16)) ≠ (0xAA11#32).extractLsb' 0 8 &&& 0xFE#8 ∧
    crc7 (rsp48Head (0x37000001#32 ++ (0x2083#32).extractLsb' 0 16)) = (0x2083#32).extractLsb' 0 8 &&& 0xFE#8 ∧
    (0x37000001#32).extractLsb' 24 8 ≠ (8#6).setWidth 8 ∧ (8#6) ≠ 41#6 := by decide +kernel

theorem witness_CompleteR3AndNoResponse :
    (waiting .r3 41 [1, 2]).cuState = .wait ∧ (waiting .r3 41 [1, 2]).cuShape = .r3 ∧ (waiting .r3 41 [1, 2]).rxq = 1 :: 2 :: [] ∧
    (waiting .none 0 [1]).cuState = .wait ∧ (waiting .none 0 [1]).cuShape = .none ∧ (waiting .none 0 [1]).rxq = 1 :: [] := by decide

-- J1, J3, J5
theorem witness_CompleteR2Decodes :
    captured.cuState = .wait ∧ captured.cuShape = .r2 ∧ captured.capN = 5 ∧
    nextWith (cuComplete captured) (fun t => t.cuStatus == .ok) = true ∧
    nextWith (cuComplete { captured with cap := captured.cap.set 4 0x17 }) (fun t => t.cuStatus == .responseCrc) = true ∧
    nextWith (cuComplete { captured with cap := captured.cap.set 0 0x02035344 }) (fun t => t.cuStatus == .responseCode) = true := by
  decide +kernel

-- every shape, one word short, at the first count past the deadline
theorem witness_TimeoutRecovers :
    [{ waiting .none 0 [] with nowMs := 3 }, { waiting .r1 8 [1] with nowMs := 3 }, { waiting .r3 41 [1] with nowMs := 3 },
      { lastCapture with nowMs := 3 }].map
      (fun s => s.cuState == .wait && !replyReady s && deadlinePassed s && nextWith (perform .cuTimeout s) (fun _ => true)) =
      [true, true, true, true] := by decide +kernel

theorem witness_OnlyCommandsAndEndingsMoveCuState :
    nextWith (perform (.present (.hostOp (portsAll 0x9))) State.reset) (fun t => t.cuState != State.reset.cuState) = true ∧
    nextWith (perform .cuComplete captured) (fun t => t.cuState != captured.cuState) = true ∧
    nextWith (perform .cuTimeout { lastCapture with nowMs := 3 }) (fun t => t.cuState != .wait) = true ∧
    nextWith (perform .resetEvent lastCapture) (fun t => t.cuState != .wait) = true := by decide +kernel

theorem witness_ChecksumRegistersHaveOneUnitEach :
    nextWith (perform (.present (.hostOp (portsAll 0x2))) State.reset) (fun t => t.crc7Acc != 0) = true ∧
    nextWith (perform (.present (.hostOp (portsAll 0x5))) State.reset) (fun t => t.crc16Lane != State.reset.crc16Lane) = true ∧
    nextWith (perform (.present (.hostOp { opsel := 0x7, e := 0 })) State.reset) (fun t => t.crc16Match != 0) = true ∧
    Stimulus.present (.hostOp { opsel := 0x7, e := 0 }) ≠ .resetEvent := by decide +kernel

theorem witness_CommandsIgnoreTheAccumulators :
    Stimulus.instr? (.present (.hostOp (portsAll 0xA))) = some (.commandR3 63 0xFFFFFFFF) ∧
    Instr.isCommand (.commandR3 63 0xFFFFFFFF) = true ∧
    Stimulus.instr? (.present (.lineResp136 0)) = some (.resp136 0 0 0 0) ∧ Instr.isEnvRow (.resp136 0 0 0 0) = true ∧
    Stimulus.clockTick ∈ [Stimulus.cuComplete, .cuTimeout, .capMove, .envTxPop, .clockTick] := by decide +kernel

theorem witness_SequencerSideChangesOnlyAsListed :
    nextWith (perform (.envSeqRun 5) State.reset) (fun t => t.seqPc != State.reset.seqPc) = true ∧
    nextWith (perform .envTxPop idleTwo) (fun t => t.txq == [2]) = true ∧ Stimulus.envTxPop ≠ .resetEvent := by decide +kernel

-- the right CRC7 of vector G1, and a wrong one
theorem witness_CommandRoundTrip :
    (0x09#7) = (crc7 ((0#2 ++ 8#6) :: (commandHead 8 0x1AA).tail)).extractLsb' 1 7 ∧
    (0x08#7) ≠ (crc7 ((0#2 ++ 8#6) :: (commandHead 8 0x1AA).tail)).extractLsb' 1 7 := by decide +kernel

theorem witness_EveryWaitEnds :
    lastCapture.cuState = .wait ∧ lastCapture.pending = [] ∧
    (waiting .r2 2 [1, 2, 3, 4]).cuState = .wait ∧ (waiting .r2 2 [1, 2, 3, 4]).pending = [] := by decide

end Sys2Proof.Tests
end

section
/-! The reserved rows of the HOST's interface (30_encoding.md R91): which ports select them, and how they answer. -/

namespace Sys2Proof.Machine

/-- The ports always decode, so presenting them runs the operation they select. -/
@[simp] theorem presentFrame_hostOp (p : Ports) (s : State) : presentFrame (.hostOp p) s = exec (decodePorts p) s := rfl

/-! ### The codes that select a reserved row, whatever the operand ports hold -/

theorem decodePorts_of_opsel_0 {p : Ports} (h : p.opsel = 0x0) : decodePorts p = .reserved0 := by
  simp [decodePorts, h]

theorem decodePorts_of_opsel_D {p : Ports} (h : p.opsel = 0xD) : decodePorts p = .reservedD := by
  simp [decodePorts, h]

theorem decodePorts_of_opsel_E {p : Ports} (h : p.opsel = 0xE) : decodePorts p = .reservedE := by
  simp [decodePorts, h]

theorem decodePorts_of_opsel_F {p : Ports} (h : p.opsel = 0xF) : decodePorts p = .reservedF := by
  simp [decodePorts, h]

/-! ### What a reserved row answers -/

@[simp] theorem exec_reserved0 (s : State) : exec .reserved0 s = .refused (.reservedOpsel 0x0) := rfl

@[simp] theorem exec_reservedD (s : State) : exec .reservedD s = .refused (.reservedOpsel 0xD) := rfl

@[simp] theorem exec_reservedE (s : State) : exec .reservedE s = .refused (.reservedOpsel 0xE) := rfl

@[simp] theorem exec_reservedF (s : State) : exec .reservedF s = .refused (.reservedOpsel 0xF) := rfl

/-- Settles O37: each of the four codes selects its reserved row by the code alone, and that row refuses from every state
with the code as its name. -/
theorem reservedOpselIsRefused : Obligations.ReservedOpselIsRefused := by
  unfold Obligations.ReservedOpselIsRefused
  refine ⟨fun s p hcode => ?_, fun s => ⟨exec_reserved0 s, exec_reservedD s, exec_reservedE s, exec_reservedF s⟩⟩
  rw [presentFrame_hostOp]
  rcases hcode with h | h | h | h
  · rw [decodePorts_of_opsel_0 h, exec_reserved0, h]
  · rw [decodePorts_of_opsel_D h, exec_reservedD, h]
  · rw [decodePorts_of_opsel_E h, exec_reservedE, h]
  · rw [decodePorts_of_opsel_F h, exec_reservedF, h]

end Sys2Proof.Machine
end

section
/-! Running several instructions in turn, and the two operations of CRC7U that take no operand (40_crc7.md R105, R107). -/

namespace Sys2Proof.Machine

/-! ### Instructions in turn -/

@[simp] theorem execAll_nil (s : State) : execAll [] s = .next s := rfl

/-- An instruction that has a next state hands that state to the instructions after it. -/
theorem execAll_cons_of_next {i : Instr} {s t : State} (h : exec i s = .next t) (is : List Instr) :
    execAll (i :: is) s = execAll is t := by
  rw [execAll, h, Result.andThen]

/-- Two instructions in turn, the first of which has a next state, answer what the second answers from there. -/
theorem execAll_pair_of_next {i j : Instr} {s t u : State} (hi : exec i s = .next t) (hj : exec j t = .next u) :
    execAll [i, j] s = .next u := by
  rw [execAll_cons_of_next hi, execAll_cons_of_next hj, execAll_nil]

/-! ### CRC7_CLR and CRC7_RD -/

theorem decodePorts_of_opsel_1 {p : Ports} (h : p.opsel = 0x1) : decodePorts p = .crc7Clr := by
  simp [decodePorts, h]

theorem decodePorts_of_opsel_3 {p : Ports} (h : p.opsel = 0x3) : decodePorts p = .crc7Rd := by
  simp [decodePorts, h]

@[simp] theorem exec_crc7Clr (s : State) : exec .crc7Clr s = .next { s with crc7Acc := 0x00, hostOut := .nothing } := rfl

@[simp] theorem exec_crc7Rd (s : State) : exec .crc7Rd s = .next { s with hostOut := .crc7 s.crc7Acc } := rfl

/-- Settles O11: each code selects its row by the code alone. A read leaves the accumulator for the next read, and a read
after the clear finds the 0x00 that the clear put there. -/
theorem crc7ClrAndRd : Obligations.Crc7ClrAndRd := by
  unfold Obligations.Crc7ClrAndRd
  refine ⟨fun _ => decodePorts_of_opsel_1, fun _ => decodePorts_of_opsel_3,
    fun s => ⟨exec_crc7Clr s, exec_crc7Rd s, ?readTwice, ?clearThenRead⟩⟩
  case readTwice =>
    rw [exec_crc7Rd]
    exact execAll_pair_of_next (exec_crc7Rd s) (exec_crc7Rd _)
  case clearThenRead => exact execAll_pair_of_next (exec_crc7Clr s) (exec_crc7Rd _)

end Sys2Proof.Machine
end

section
/-! The operations of CRC16U that clear, read and compare the lanes (41_crc16_4lane.md R130, R132, R133). -/

namespace Sys2Proof.Machine

/-! ### CRC16_CLR and CRC16_RD -/

theorem decodePorts_of_opsel_4 {p : Ports} (h : p.opsel = 0x4) : decodePorts p = .crc16Clr := by
  simp [decodePorts, h]

theorem decodePorts_of_opsel_6 {p : Ports} (h : p.opsel = 0x6) : decodePorts p = .crc16Rd := by
  simp [decodePorts, h]

@[simp] theorem exec_crc16Clr (s : State) :
    exec .crc16Clr s = .next { s with crc16Lane := Lanes.zero, hostOut := .nothing } := rfl

@[simp] theorem exec_crc16Rd (s : State) : exec .crc16Rd s = .next { s with hostOut := .crc16 s.crc16Lane.packed } := rfl

@[simp] theorem Lanes.zero_packed : Lanes.zero.packed = 0 := by decide

/-- R130, R132: a read that follows a clear finds the four zero lanes. -/
theorem execAll_crc16Clr_crc16Rd (s : State) :
    execAll [.crc16Clr, .crc16Rd] s = .next { s with crc16Lane := Lanes.zero, hostOut := .crc16 0 } := by
  rw [execAll_pair_of_next (exec_crc16Clr s) (exec_crc16Rd _), Lanes.zero_packed]

/-- Settles O17: each code selects its row by the code alone. The clear and the read are each one update of the state, and
the read after the clear packs four zero lanes. -/
theorem crc16ClrAndRd : Obligations.Crc16ClrAndRd := by
  unfold Obligations.Crc16ClrAndRd
  exact ⟨fun _ => decodePorts_of_opsel_4, fun _ => decodePorts_of_opsel_6,
    fun s => ⟨exec_crc16Clr s, exec_crc16Rd s, execAll_crc16Clr_crc16Rd s⟩⟩

/-! ### CRC16_CMP -/

theorem decodePorts_of_opsel_7 {p : Ports} (h : p.opsel = 0x7) : decodePorts p = .crc16Cmp p.e := by
  simp [decodePorts, h]

/-- R133: the flag and the result are one verdict. -/
@[simp] theorem exec_crc16Cmp (e : BitVec 64) (s : State) :
    exec (.crc16Cmp e) s =
      .next { s with crc16Match := crc16Verdict e s.crc16Lane, hostOut := .cmpMatch (crc16Verdict e s.crc16Lane) } := rfl

theorem crc16Verdict_of_eq {e : BitVec 64} {l : Lanes} (h : e = l.packed) : crc16Verdict e l = 1 := if_pos h

theorem crc16Verdict_of_ne {e : BitVec 64} {l : Lanes} (h : e ≠ l.packed) : crc16Verdict e l = 0 := if_neg h

/-- Settles O19: the code selects the row with its operand, and the verdict that goes to the flag and to the HOST is 1 where
the operand equals the packed lanes, 0 where it differs. -/
theorem crc16CmpSetsMatch : Obligations.Crc16CmpSetsMatch := by
  unfold Obligations.Crc16CmpSetsMatch
  refine ⟨fun _ => decodePorts_of_opsel_7, fun s e => ⟨fun heq => ?equal, fun hne => ?differs⟩⟩
  case equal => rw [exec_crc16Cmp, crc16Verdict_of_eq heq]
  case differs => rw [exec_crc16Cmp, crc16Verdict_of_ne hne]

end Sys2Proof.Machine
end

section
/-! The HOST's operations on CMDU: what a COMMAND operation does in its precondition and outside it, and what CU_RESULT
returns (43_response_decoder.md R170 to R176). -/

namespace Sys2Proof.Machine

/-! ### The codes -/

theorem decodePorts_of_opsel_8 {p : Ports} (h : p.opsel = 0x8) : decodePorts p = .commandR1 p.cmd p.arg p.want := by
  simp [decodePorts, h]

theorem decodePorts_of_opsel_9 {p : Ports} (h : p.opsel = 0x9) : decodePorts p = .commandR2 p.cmd p.arg := by
  simp [decodePorts, h]

theorem decodePorts_of_opsel_A {p : Ports} (h : p.opsel = 0xA) : decodePorts p = .commandR3 p.cmd p.arg := by
  simp [decodePorts, h]

theorem decodePorts_of_opsel_B {p : Ports} (h : p.opsel = 0xB) : decodePorts p = .cuResult := by
  simp [decodePorts, h]

/-! ### Each COMMAND operation is an issue -/

@[simp] theorem exec_commandR1_want (cmd : BitVec 6) (arg : Word) (s : State) :
    exec (.commandR1 cmd arg true) s = issueCommand cmd arg 48 .r1 s := rfl

@[simp] theorem exec_commandR1_noResponse (cmd : BitVec 6) (arg : Word) (s : State) :
    exec (.commandR1 cmd arg false) s = issueCommand cmd arg 0 .none s := rfl

/-- R172: the capture is armed, and empty, before the words are pushed. -/
@[simp] theorem exec_commandR2 (cmd : BitVec 6) (arg : Word) (s : State) :
    exec (.commandR2 cmd arg) s = issueCommand cmd arg 136 .r2 { s with capN := 0, capArmed := true } := rfl

@[simp] theorem exec_commandR3 (cmd : BitVec 6) (arg : Word) (s : State) :
    exec (.commandR3 cmd arg) s = issueCommand cmd arg 48 .r3 s := rfl

/-- Whatever the COMMAND operation, it is an issue from a state that differs in the capture's count and arming alone. -/
theorem exec_eq_issueCommand_of_isCommand {i : Instr} (h : Instr.isCommand i = true) (s : State) :
    ∃ cmd arg rbits shape n armed, exec i s = issueCommand cmd arg rbits shape { s with capN := n, capArmed := armed } := by
  cases i with
  | commandR1 cmd arg want => exact ⟨cmd, arg, _, _, s.capN, s.capArmed, rfl⟩
  | commandR2 cmd arg => exact ⟨cmd, arg, 136, .r2, 0, true, exec_commandR2 cmd arg s⟩
  | commandR3 cmd arg => exact ⟨cmd, arg, 48, .r3, s.capN, s.capArmed, exec_commandR3 cmd arg s⟩
  | _ => cases h

/-! ### Issue in the precondition (R170), and the two refusals (R175) -/

section Issue

variable {s : State} {cmd : BitVec 6} {arg : Word} {rbits : Nat} {shape : Shape}

/-- In `CU_IDLE` with room for two words an admitted response length is all that an issue needs. -/
theorem issueCommand_of_idle_of_room (hidle : s.cuState = .idle) (hroom : s.txq.length + 2 ≤ Config.txqDepth)
    (hbits : rbits = 0 ∨ rbits = 48 ∨ rbits = 136) :
    ∃ w0 w1, frameCommand cmd arg rbits = some (w0, w1) ∧
      issueCommand cmd arg rbits shape s = .next { s with
        rxq := [], txq := s.txq ++ [w0, w1], cuStart := s.nowMs, cuCmd := cmd, cuShape := shape, cuStatus := .ok,
        cuState := .wait, hostOut := .nothing } := by
  obtain ⟨⟨w0, w1⟩, hframe⟩ := frameCommand_some_iff.2 hbits
  exact ⟨w0, w1, hframe, issueCommand_next.2 ⟨hidle, hroom, w0, w1, hframe, rfl⟩⟩

theorem issueCommand_of_wait (hwait : s.cuState = .wait) :
    issueCommand cmd arg rbits shape s = .refused .commandInFlight := by
  simp [issueCommand, sendCommand, hwait]

theorem issueCommand_of_noRoom (hidle : s.cuState = .idle) (hfull : Config.txqDepth < s.txq.length + 2) :
    issueCommand cmd arg rbits shape s = .refused .txqNoRoom := by
  simp [issueCommand, sendCommand, hidle, hfull]

end Issue

/-- Settles O30: each code selects its row by the code alone, and each row is an issue whose response length, 48 or 0, the
framer admits. -/
theorem commandR1AndR3Issue : Obligations.CommandR1AndR3Issue := by
  unfold Obligations.CommandR1AndR3Issue
  refine ⟨fun _ => decodePorts_of_opsel_8, fun _ => decodePorts_of_opsel_A,
    fun s cmd arg hidle hroom => ⟨fun want => ?r1, ?r3⟩⟩
  case r1 =>
    cases want with
    | true =>
      rw [exec_commandR1_want]
      exact issueCommand_of_idle_of_room hidle hroom (.inr (.inl rfl))
    | false =>
      rw [exec_commandR1_noResponse]
      exact issueCommand_of_idle_of_room hidle hroom (.inl rfl)
  case r3 =>
    rw [exec_commandR3]
    exact issueCommand_of_idle_of_room hidle hroom (.inr (.inl rfl))

/-- Settles O31: the code selects the row, which is an issue with 136 response bits from the state with the capture armed
and empty. -/
theorem commandR2Issues : Obligations.CommandR2Issues := by
  unfold Obligations.CommandR2Issues
  refine ⟨fun _ => decodePorts_of_opsel_9, fun s cmd arg hidle hroom => ?_⟩
  rw [exec_commandR2]
  exact issueCommand_of_idle_of_room (s := { s with capN := 0, capArmed := true }) hidle hroom (.inr (.inr rfl))

/-- Settles O32: arming the capture moves neither `CU_STATE` nor `TXQ`, so each COMMAND is refused as its issue is. -/
theorem commandRefusedOutsidePrecondition : Obligations.CommandRefusedOutsidePrecondition := by
  unfold Obligations.CommandRefusedOutsidePrecondition
  intro s i hcommand
  obtain ⟨cmd, arg, rbits, shape, n, armed, hexec⟩ := exec_eq_issueCommand_of_isCommand hcommand s
  rw [hexec]
  exact ⟨fun hwait => issueCommand_of_wait hwait, fun hidle hfull => issueCommand_of_noRoom hidle hfull⟩

/-! ### CU_RESULT (R176) -/

@[simp] theorem exec_cuResult (s : State) :
    exec .cuResult s = .next { s with hostOut := .result s.cuState.code s.cuStatus.code (shownResp32 s) } := rfl

theorem shownResp32_of_idle {s : State} (h : s.cuState = .idle) : shownResp32 s = s.cuResp32 := by
  simp [shownResp32, h]

/-- What is shown does not depend on what the result port held, so a second read returns what the first did. -/
theorem execAll_cuResult_cuResult (s : State) : execAll [.cuResult, .cuResult] s = exec .cuResult s := by
  rw [exec_cuResult]
  exact execAll_pair_of_next (exec_cuResult s) (exec_cuResult _)

/-- Settles O34: the code selects the row, and `CU_STATE` decides the first and the third value. In `CU_WAIT` the invariant
on `CU_STATUS` (R28) gives the second. -/
theorem cuResultReturnsTheStatus : Obligations.CuResultReturnsTheStatus := by
  unfold Obligations.CuResultReturnsTheStatus
  refine ⟨fun _ => decodePorts_of_opsel_B, fun s =>
    ⟨fun hidle => ?idle, fun hwait => ⟨shownResp32 s, ?wait, fun hinv => ?statusOk⟩, execAll_cuResult_cuResult s⟩⟩
  case idle => rw [exec_cuResult, hidle, shownResp32_of_idle hidle]; rfl
  case wait => rw [exec_cuResult, hwait]; rfl
  case statusOk => rw [hinv.waitOk hwait]; rfl

end Sys2Proof.Machine
end

section
/-! The steps of CAPTURE and CMDU: CAP_MOVE, what CMDU waits on, and how a command ends (43_response_decoder.md R179 to
R191). -/

namespace Sys2Proof.Machine

@[simp] theorem perform_capMove (s : State) : perform .capMove s = capMove s := rfl

@[simp] theorem perform_cuComplete (s : State) : perform .cuComplete s = cuComplete s := rfl

@[simp] theorem perform_cuTimeout (s : State) : perform .cuTimeout s = cuTimeout s := rfl

/-! ### CAP_MOVE (R179) -/

/-- With a word at the head of `RXQ` and a free place, the capture file takes the word at that place. -/
theorem captureWord_of_head {s : State} {w : Word} {rest : List Word} (hq : s.rxq = w :: rest) (hn : s.capN.toNat < 5) :
    captureWord s = { s with cap := s.cap.set s.capN.toNat w hn, capN := s.capN + 1, rxq := rest } := by
  have hcap : s.cap.setIfInBounds s.capN.toNat w = s.cap.set s.capN.toNat w hn := by
    ext i hi
    simp [Vector.getElem_setIfInBounds, Vector.getElem_set]
  simp [captureWord, hq, hcap]

/-- Settles O43: the enabling condition decides whether there is a step, and where there is one the word at the head of
`RXQ` goes to the place `CAP_N` names. -/
theorem capMoveTakesOneWord : Obligations.CapMoveTakesOneWord := by
  unfold Obligations.CapMoveTakesOneWord
  intro s w rest hq
  simp only [perform_capMove]
  refine ⟨fun hn harmed => ?moves, fun u hoff hstep => ?disabled, fun u hstep => ?empty⟩
  case moves =>
    have hlen : 0 < s.rxq.length := by simp [hq]
    exact capMove_next.2 ⟨captureEnabled_iff.2 ⟨harmed, hn, hlen⟩, (captureWord_of_head hq hn).symm⟩
  case disabled =>
    obtain ⟨harmed, hn, -⟩ := captureEnabled_iff.1 (capMove_next.1 hstep).1
    rcases hoff with hunarmed | hfull
    · simp [hunarmed] at harmed
    · omega
  case empty =>
    obtain ⟨-, -, hlen⟩ := captureEnabled_iff.1 (capMove_next.1 hstep).1
    simp at hlen

/-! ### What CMDU waits on (R180, R182) -/

section Wait

variable {s : State}

theorem replyReady_of_none (h : s.cuShape = .none) : replyReady s = true ↔ 1 ≤ s.rxq.length := by
  simp [replyReady, h]

theorem replyReady_of_r1_or_r3 (h : s.cuShape = .r1 ∨ s.cuShape = .r3) : replyReady s = true ↔ 2 ≤ s.rxq.length := by
  rcases h with h | h <;> simp [replyReady, h]

theorem replyReady_of_r2 (h : s.cuShape = .r2) : replyReady s = true ↔ s.capN = 5 := by
  simp only [replyReady, h, decide_eq_true_eq]
  exact BitVec.toNat_inj (y := 5)

theorem deadlinePassed_iff : deadlinePassed s = true ↔ 2 < (elapsed s).toNat := decide_eq_true_iff

theorem elapsed_toNat : (elapsed s).toNat = (s.nowMs.toNat + 2 ^ 32 - s.cuStart.toNat) % 2 ^ 32 := by
  have hstart := s.cuStart.isLt
  rw [elapsed, BitVec.toNat_sub]
  congr 1
  omega

/-- The modular subtraction gives back the ticks since issue, wherever `NOW_MS` wrapped. -/
theorem elapsed_toNat_of_ticks {k : Nat} (hnow : s.nowMs = s.cuStart + BitVec.ofNat 32 k) (hk : k < 2 ^ 32) :
    (elapsed s).toNat = k := by
  rw [elapsed, hnow, BitVec.add_comm, BitVec.add_sub_cancel, BitVec.toNat_ofNat, Nat.mod_eq_of_lt hk]

end Wait

/-- Settles O45: the shape decides what `reply_ready` counts, and the deadline compares the ticks since issue with
`RESP_TIMEOUT_MS` = 2. -/
theorem waitPredicates : Obligations.WaitPredicates := by
  unfold Obligations.WaitPredicates
  refine fun s => ⟨replyReady_of_none, replyReady_of_r1_or_r3, replyReady_of_r2, ?modular, fun k hnow hk => ?ticks⟩
  case modular => rw [deadlinePassed_iff, elapsed_toNat]
  case ticks => rw [deadlinePassed_iff, elapsed_toNat_of_ticks hnow hk]; omega

/-! ### How a command ends (R181, R190, R191, R251) -/

section Endings

variable {s : State}

theorem cuComplete_of_ready (hwait : s.cuState = .wait) (hready : replyReady s = true) :
    cuComplete s = .next (completed s) :=
  cuComplete_next.2 ⟨completeEnabled_iff.2 ⟨hwait, hready⟩, rfl⟩

theorem completed_of_none (h : s.cuShape = .none) : completed s = completeNone s := by simp [completed, h]

theorem completed_of_r3 (h : s.cuShape = .r3) : completed s = completeR3 s := by simp [completed, h]

/-- Every ending is written by `raise`, whatever the shape. -/
@[simp] theorem completed_cuState : (completed s).cuState = .idle := by
  unfold completed
  cases s.cuShape <;> rfl

/-- R251: the registers an ending may write are none of those it must keep. -/
theorem endingKeeps_update (state : CuState) (status : Status) (resp : Word) (buf : Vector Byte 16) (armed : Bool)
    (rxq : List Word) (pc draws : Nat) :
    EndingKeeps s { s with
      cuState := state, cuStatus := status, cuResp32 := resp, respBuf := buf, capArmed := armed, rxq := rxq, seqPc := pc,
      draws := draws } :=
  ⟨rfl, rfl, rfl, rfl, rfl, rfl, rfl, rfl, rfl, rfl, rfl, rfl, rfl⟩

theorem endingKeeps_completeNone : EndingKeeps s (completeNone s) := endingKeeps_update ..

theorem endingKeeps_completeR3 : EndingKeeps s (completeR3 s) := endingKeeps_update ..

theorem endingKeeps_recoverFromTimeout : EndingKeeps s (recoverFromTimeout s) := endingKeeps_update ..

end Endings

/-! ### The reply in `RXQ`, and the two endings that check nothing -/

@[simp] theorem completeNone_rxq (s : State) : (completeNone s).rxq = s.rxq.drop 1 := rfl

@[simp] theorem completeR3_rxq (s : State) : (completeR3 s).rxq = s.rxq.drop 2 := rfl

@[simp] theorem completeR3_cuResp32 (s : State) : (completeR3 s).cuResp32 = decodeR3 (rsp48AtHead s) := rfl

/-- R81, R190: bits [39:8] of a 48-bit response are the low three bytes of its first word and byte 1 of its second. -/
theorem decodeR3_rsp48OfWords (w0 w1 : Word) :
    decodeR3 (rsp48OfWords w0 w1) = w0.extractLsb' 0 24 ++ w1.extractLsb' 8 8 := by
  apply BitVec.eq_of_getLsbD_eq
  intro i hi
  simp only [decodeR3, rsp48OfWords, BitVec.getLsbD_append, BitVec.getLsbD_extractLsb']
  interval_cases i <;> simp

theorem rsp48AtHead_of_cons {s : State} {w0 w1 : Word} {rest : List Word} (hq : s.rxq = w0 :: w1 :: rest) :
    rsp48AtHead s = rsp48OfWords w0 w1 := by
  simp [rsp48AtHead, hq]

/-- Settles O48: the words at the head of `RXQ` make the reply ready, so the step is the ending of the shape; it pops those
words, raises `OK`, and for SH_R3 returns the payload they carry. -/
theorem completeR3AndNoResponse : Obligations.CompleteR3AndNoResponse := by
  unfold Obligations.CompleteR3AndNoResponse
  simp only [perform_cuComplete]
  refine ⟨fun s w0 w1 rest hwait hshape hq => ?r3, fun s w rest hwait hshape hq => ?noResponse⟩
  case r3 =>
    have hready : replyReady s = true := (replyReady_of_r1_or_r3 (.inr hshape)).2 (by simp [hq])
    have hstep : cuComplete s = .next (completeR3 s) := by
      rw [cuComplete_of_ready hwait hready, completed_of_r3 hshape]
    have hrxq : (completeR3 s).rxq = rest := by simp [hq]
    have hresp : (completeR3 s).cuResp32 = w0.extractLsb' 0 24 ++ w1.extractLsb' 8 8 := by
      rw [completeR3_cuResp32, rsp48AtHead_of_cons hq, decodeR3_rsp48OfWords]
    exact ⟨completeR3 s, hstep, endingKeeps_completeR3, rfl, hrxq, rfl, rfl, rfl, hresp⟩
  case noResponse =>
    have hready : replyReady s = true := (replyReady_of_none hshape).2 (by simp [hq])
    have hstep : cuComplete s = .next (completeNone s) := by
      rw [cuComplete_of_ready hwait hready, completed_of_none hshape]
    have hrxq : (completeNone s).rxq = rest := by simp [hq]
    exact ⟨completeNone s, hstep, endingKeeps_completeNone, rfl, hrxq, rfl, rfl, rfl⟩

/-- Settles O46: `reply_ready` enables CU_COMPLETE and disables CU_TIMEOUT, and the deadline is in the condition of
CU_TIMEOUT alone. -/
theorem replyBeatsDeadline : Obligations.ReplyBeatsDeadline := by
  unfold Obligations.ReplyBeatsDeadline
  intro s
  simp only [perform_cuComplete, perform_cuTimeout]
  refine ⟨fun hwait hready => ⟨⟨completed s, cuComplete_of_ready hwait hready, completed_cuState⟩, fun u hstep => ?_⟩,
    fun u hstep => completeEnabled_iff.1 (cuComplete_next.1 hstep).1⟩
  obtain ⟨-, hnotReady, -⟩ := timeoutEnabled_iff.1 (cuTimeout_next.1 hstep).1
  simp [hready] at hnotReady

/-- Settles O50: the step exists exactly where it is enabled, and is the recovery, which writes none of the registers an
ending keeps. -/
theorem timeoutRecovers : Obligations.TimeoutRecovers := by
  unfold Obligations.TimeoutRecovers
  intro s
  simp only [perform_cuTimeout]
  refine ⟨fun hwait hnotReady hlate => ?recovers, fun u hstep => timeoutEnabled_iff.1 (cuTimeout_next.1 hstep).1⟩
  have hstep : cuTimeout s = .next (recoverFromTimeout s) :=
    cuTimeout_next.2 ⟨timeoutEnabled_iff.2 ⟨hwait, hnotReady, hlate⟩, rfl⟩
  exact ⟨recoverFromTimeout s, hstep, endingKeeps_recoverFromTimeout, rfl, rfl, rfl, rfl, rfl⟩

end Sys2Proof.Machine
end

section
/-! The state after RESET (70_reset_and_hazards.md R271). -/

namespace Sys2Proof.Machine

@[simp] theorem State.reset_crc16Lane : State.reset.crc16Lane = Lanes.zero := rfl

/-- Settles O1: the lanes are zero at reset and zero lanes pack to 0; every other value of the table is a field of the reset
state as it stands. -/
theorem resetGivesTheListedValues : Obligations.ResetGivesTheListedValues := by
  unfold Obligations.ResetGivesTheListedValues
  have hpacked : State.reset.crc16Lane.packed = 0 := by rw [State.reset_crc16Lane, Lanes.zero_packed]
  exact ⟨rfl, hpacked, rfl, rfl, rfl, rfl, rfl, rfl, rfl⟩

end Sys2Proof.Machine
end

section
/-! The decoder and the encoder are each other's inverse (30_encoding.md sections 1 and 3), and a step runs the instruction
its frame decodes to. -/

namespace Sys2Proof

open Machine

/-! ### What decodes from each place -/

theorem decode_lineCmd48_ok {v : BitVec 48} {i : Instr} :
    decode (.lineCmd48 v) = .ok i ↔
      cmd48FixedOk v = true ∧ .cmd48 (v.extractLsb' 40 6) (v.extractLsb' 8 32) (v.extractLsb' 1 7) = i := by
  by_cases h : cmd48FixedOk v <;> simp [decode, h]

theorem decode_txFirst_ok {w : Word} {i : Instr} :
    decode (.txFirst w) = .ok i ↔
      seqW0FixedOk w = true ∧ .seqW0 (w.extractLsb' 24 8) (w.extractLsb' 16 6) (w.extractLsb' 0 16) = i := by
  by_cases h : seqW0FixedOk w <;> simp [decode, h]

theorem decode_txSecond_ok {w : Word} {i : Instr} :
    decode (.txSecond w) = .ok i ↔
      seqW1FixedOk w = true ∧ .seqW1 (w.extractLsb' 16 16) (w.extractLsb' 9 7) (w.extractLsb' 0 8) = i := by
  by_cases h : seqW1FixedOk w <;> simp [decode, h]

theorem decode_laneTrailer (v : BitVec 64) :
    decode (.laneTrailer v) =
      .ok (.trailer (Lanes.ofWire v).l0 (Lanes.ofWire v).l1 (Lanes.ofWire v).l2 (Lanes.ofWire v).l3) := rfl

theorem decode_laneTrailer_wire (l : Lanes) : decode (.laneTrailer l.wire) = .ok (.trailer l.l0 l.l1 l.l2 l.l3) := by
  rw [decode_laneTrailer, Lanes.ofWire_wire]

/-- Settles O5: the rows of the HOST's interface are told apart by their code, and in a wire or word format each field is
read where it was packed. -/
theorem decodeInvertsEncode : Obligations.DecodeInvertsEncode := by
  unfold Obligations.DecodeInvertsEncode
  intro i
  cases i with
  | cmd48 index arg crc =>
    exact decode_lineCmd48_ok.2 ⟨packCmd48_fixed .., by rw [packCmd48_index, packCmd48_arg, packCmd48_crc]⟩
  | resp48 start index payload crc e =>
    simp only [encode, decode, packResp48_start, packResp48_index, packResp48_payload, packResp48_crc, packResp48_end]
  | resp136 marker payload crc e =>
    simp only [encode, decode, packResp136_marker, packResp136_payload, packResp136_crc, packResp136_end]
  | trailer a b c d => exact decode_laneTrailer_wire ⟨a, b, c, d⟩
  | seqW0 len index argHi =>
    exact decode_txFirst_ok.2 ⟨packSeqW0_fixed .., by rw [packSeqW0_len, packSeqW0_index, packSeqW0_argHi]⟩
  | seqW1 argLo crc rlen =>
    exact decode_txSecond_ok.2 ⟨packSeqW1_fixed .., by rw [packSeqW1_argLo, packSeqW1_crc, packSeqW1_rlen]⟩
  | rw0 code payload => simp only [encode, decode, packRw0_code, packRw0_payload]
  | rw1 filler payload crc e =>
    simp only [encode, decode, packRw1_filler, packRw1_payload, packRw1_crc, packRw1_end]
  | capw4 filler crc e => simp only [encode, decode, packCapw4_filler, packCapw4_crc, packCapw4_end]
  | _ => rfl

/-- Settles O6: packing the fields that were read gives the frame back, where a format fixes bits because they were
checked. -/
theorem encodeInvertsDecodeOnFormats : Obligations.EncodeInvertsDecodeOnFormats := by
  unfold Obligations.EncodeInvertsDecodeOnFormats
  intro f i hformat hdecode
  cases f with
  | hostOp p => exact absurd rfl (hformat p)
  | lineCmd48 v =>
    obtain ⟨hfixed, rfl⟩ := decode_lineCmd48_ok.1 hdecode
    simp only [encode, packCmd48_of_fixed v hfixed]
  | txFirst w =>
    obtain ⟨hfixed, rfl⟩ := decode_txFirst_ok.1 hdecode
    simp only [encode, packSeqW0_of_fixed w hfixed]
  | txSecond w =>
    obtain ⟨hfixed, rfl⟩ := decode_txSecond_ok.1 hdecode
    simp only [encode, packSeqW1_of_fixed w hfixed]
  | lineResp48 v => cases hdecode; simp only [encode, packResp48_of_fields]
  | lineResp136 v => cases hdecode; simp only [encode, packResp136_of_fields]
  | laneTrailer v => cases hdecode; exact congrArg _ (Lanes.wire_ofWire v)
  | rxFirst w => cases hdecode; simp only [encode, packRw0_of_fields]
  | rxSecond w => cases hdecode; simp only [encode, packRw1_of_fields]
  | rxCaptureLast w => cases hdecode; simp only [encode, packCapw4_of_fields]
  | rxDone w | rxCapture w => cases hdecode; rfl
  | unformatted n w => cases hdecode

/-! ### The fixed bits -/

/-- A one-bit slice is the bit it slices. -/
theorem extractLsb'_one_eq_ofBool {n : Nat} {v : BitVec n} {k : Nat} {b : Bool} :
    v.extractLsb' k 1 = BitVec.ofBool b ↔ v.getLsbD k = b := by
  constructor
  · intro h
    simpa using congrArg (·.getLsbD 0) h
  · rintro rfl
    ext i hi
    simp [show i = 0 by omega]

theorem cmd48FixedOk_iff {v : BitVec 48} :
    cmd48FixedOk v = true ↔ v.getLsbD 47 = false ∧ v.getLsbD 46 = true ∧ v.getLsbD 0 = true := by
  simp only [cmd48FixedOk, Bool.and_eq_true, beq_iff_eq, and_assoc]
  exact and_congr (extractLsb'_one_eq_ofBool (b := false))
    (and_congr (extractLsb'_one_eq_ofBool (b := true)) (extractLsb'_one_eq_ofBool (b := true)))

theorem seqW0FixedOk_iff {w : Word} : seqW0FixedOk w = true ↔ w.getLsbD 23 = false ∧ w.getLsbD 22 = true := by
  simp only [seqW0FixedOk, Bool.and_eq_true, beq_iff_eq]
  exact and_congr (extractLsb'_one_eq_ofBool (b := false)) (extractLsb'_one_eq_ofBool (b := true))

theorem seqW1FixedOk_iff {w : Word} : seqW1FixedOk w = true ↔ w.getLsbD 8 = true := by
  rw [seqW1FixedOk, beq_iff_eq]
  exact extractLsb'_one_eq_ofBool (b := true)

/-- Settles O8: a frame of each of the three formats decodes exactly where the check of its fixed bits holds, and the check
reads those bits. -/
theorem fixedBitsDecideAcceptance : Obligations.FixedBitsDecideAcceptance := by
  unfold Obligations.FixedBitsDecideAcceptance
  simp only [decode_lineCmd48_ok, decode_txFirst_ok, decode_txSecond_ok, exists_and_left, exists_eq', and_true]
  exact ⟨fun _ => cmd48FixedOk_iff, fun _ => seqW0FixedOk_iff, fun _ => seqW1FixedOk_iff⟩

/-- Settles O7: each word is written out in full, so its decoding is read off. -/
theorem writtenOutWordsDecode : Obligations.WrittenOutWordsDecode := by
  unfold Obligations.WrittenOutWordsDecode
  exact ⟨rfl, rfl, rfl, rfl, rfl⟩

/-! ### A step runs what its frame decodes to -/

theorem decodeTableWord_eq_some {nbits w : Nat} {i : Instr} :
    decodeTableWord nbits w = some i ↔ decode (frameOfTable nbits w) = .ok i := by
  unfold decodeTableWord
  cases decode (frameOfTable nbits w) <;> simp

end Sys2Proof

namespace Sys2Proof.Machine

theorem presentFrame_of_decode {f : Frame} {i : Instr} (h : decode f = .ok i) (s : State) :
    presentFrame f s = exec i s := by
  simp only [presentFrame, h]

theorem presentFrame_of_decode_error {f : Frame} {e : DecodeError} (h : decode f = .error e) (s : State) :
    presentFrame f s = .refused (.undecodable e) := by
  simp only [presentFrame, h]

theorem step_of_pending_cons {s : State} {a : Stimulus} {rest : List Stimulus} (h : s.pending = a :: rest) :
    step s = perform a { s with pending := rest } := by
  simp only [step, h]

theorem step_of_pending_nil {s : State} (h : s.pending = []) : step s = ownTurn s := by
  simp only [step, h]

/-- A frame's place is in the queues, the capture and CMDU's registers, and not in the list of what happens next. -/
@[simp] theorem placeFrame_pending (f : Frame) (s : State) : (placeFrame f s).pending = s.pending := by
  cases f <;> rfl

/-- Settles O9: the head of `pending` is performed, and to perform a frame is to run what it decodes to. -/
theorem stepRunsTheDecodedInstruction : Obligations.StepRunsTheDecodedInstruction := by
  unfold Obligations.StepRunsTheDecodedInstruction
  refine fun s rest => ⟨fun f i hs hi => ?decodes, fun f e hs he => ?undecodable, fun a hs => step_of_pending_cons hs⟩
  case decodes => rw [step_of_pending_cons hs]; exact presentFrame_of_decode hi _
  case undecodable => rw [step_of_pending_cons hs]; exact presentFrame_of_decode_error he _

/-- Settles O10: the placed frame is the head of `pending`, and what is left when it is taken off is the state with the
frame in its place. -/
theorem placedWordRunsNext : Obligations.PlacedWordRunsNext := by
  unfold Obligations.PlacedWordRunsNext
  intro s nbits w i hi
  refine ⟨?_, placeFrame_pending _ s⟩
  have hhead : (s.withFetchWord nbits w).pending =
      .present (frameOfTable nbits w) :: (placeFrame (frameOfTable nbits w) s).pending := rfl
  rw [step_of_pending_cons hhead]
  exact presentFrame_of_decode (decodeTableWord_eq_some.1 hi) _

end Sys2Proof.Machine
end

section
/-! What one stimulus can do to the state, said once for all agents, and the rules of the whole machine that follow: the
invariants (10_state.md section 6) and who writes which register (45_operation_laws.md section 3). -/

namespace Sys2Proof.Machine

/-! ### The steps of ENV and CAPTURE -/

/-- What ENV and CAPTURE can do: `TXQ` loses words at its head; `RXQ`, the capture file and its count move, within their
bounds; free values may be drawn. -/
structure CrossesQueues (s t : State) : Prop where
  eq : t = { s with txq := t.txq, rxq := t.rxq, cap := t.cap, capN := t.capN, draws := t.draws }
  txq : ∃ n, t.txq = s.txq.drop n
  rxqRoom : s.rxq.length ≤ Config.rxqDepth → t.rxq.length ≤ Config.rxqDepth
  capCount : s.capN.toNat ≤ 5 → t.capN.toNat ≤ 5

theorem CrossesQueues.trans {s t u : State} (hst : CrossesQueues s t) (htu : CrossesQueues t u) : CrossesQueues s u := by
  obtain ⟨n, hn⟩ := hst.txq
  obtain ⟨m, hm⟩ := htu.txq
  refine ⟨?_, ⟨n + m, ?_⟩, htu.rxqRoom ∘ hst.rxqRoom, htu.capCount ∘ hst.capCount⟩
  · rw [htu.eq, hst.eq]
  · rw [hm, hn, List.drop_drop]

theorem crossesQueues_of_envTxPop {s t : State} (h : envTxPop s = .next t) : CrossesQueues s t := by
  obtain ⟨w, rest, hq, rfl⟩ := envTxPop_next.1 h
  exact ⟨rfl, ⟨1, by simp [hq]⟩, id, id⟩

theorem crossesQueues_of_takeWord {w : Word} {s t : State} (h : takeWord w s = .next t) : CrossesQueues s t := by
  obtain ⟨rest, hq, rfl⟩ := takeWord_next.1 h
  exact ⟨rfl, ⟨1, by simp [hq]⟩, id, id⟩

theorem crossesQueues_of_execCmd48 {index : BitVec 6} {arg : Word} {crc : BitVec 7} {s t : State}
    (h : execCmd48 index arg crc s = .next t) : CrossesQueues s t := by
  unfold execCmd48 at h
  split at h
  · split at h
    · obtain ⟨u, hu, ht⟩ := Result.andThen_next.1 h
      exact (crossesQueues_of_envTxPop hu).trans (crossesQueues_of_envTxPop ht)
    · cases h
  · cases h

theorem crossesQueues_of_envRxPush {w : Word} {s t : State} (h : envRxPush w s = .next t) : CrossesQueues s t := by
  obtain ⟨hroom, rfl⟩ := envRxPush_next.1 h
  exact ⟨rfl, ⟨0, rfl⟩, fun _ => by simpa using hroom, id⟩

theorem crossesQueues_draws (s : State) (d : Nat) : CrossesQueues s { s with draws := d } := ⟨rfl, ⟨0, rfl⟩, id, id⟩

theorem crossesQueues_of_capMove {s t : State} (h : capMove s = .next t) : CrossesQueues s t := by
  obtain ⟨henabled, rfl⟩ := capMove_next.1 h
  obtain ⟨-, hn, -⟩ := captureEnabled_iff.1 henabled
  refine ⟨rfl, ⟨0, rfl⟩, fun hroom => ?_, fun _ => ?_⟩
  · rw [captureWord_rxq, List.length_drop]
    omega
  · rw [captureWord_capN, BitVec.toNat_add]
    change (s.capN.toNat + 1) % 8 ≤ 5
    omega

theorem crossesQueues_of_pushThenCapture {w : Word} {s t : State} (h : pushThenCapture w s = .next t) :
    CrossesQueues s t := by
  obtain ⟨rxq, cap, capN, rfl, hrxq, hcapN⟩ := pushThenCapture_next h
  exact ⟨rfl, ⟨0, rfl⟩, fun _ => hrxq, hcapN⟩

theorem crossesQueues_of_pushAll {ws : List Word} {s t : State} (h : pushAll ws s = .next t) : CrossesQueues s t := by
  induction ws generalizing s with
  | nil => cases h; exact crossesQueues_draws t t.draws
  | cons w ws ih =>
    obtain ⟨u, hu, ht⟩ := Result.andThen_next.1 h
    exact (crossesQueues_of_pushThenCapture hu).trans (ih ht)

theorem crossesQueues_of_execResp48 {start : BitVec 2} {index : BitVec 6} {payload : Word} {crc : BitVec 7} {e : BitVec 1}
    {s t : State} (h : execResp48 start index payload crc e s = .next t) : CrossesQueues s t := by
  obtain ⟨u, hu, ht⟩ := Result.andThen_next.1 h
  exact (crossesQueues_of_envRxPush hu).trans ((crossesQueues_draws u _).trans (crossesQueues_of_envRxPush ht))

/-- A format row that is a step of ENV crosses the queues and does nothing else (log 2). -/
theorem crossesQueues_of_isEnvRow {i : Instr} (hi : Instr.isEnvRow i = true) {s t : State} (h : exec i s = .next t) :
    CrossesQueues s t := by
  cases i with
  | cmd48 index arg crc => exact crossesQueues_of_execCmd48 h
  | seqW0 len index argHi => exact crossesQueues_of_takeWord h
  | seqW1 argLo crc rlen => exact crossesQueues_of_takeWord h
  | resp48 start index payload crc e => exact crossesQueues_of_execResp48 h
  | resp136 marker payload crc e => exact (crossesQueues_draws s _).trans (crossesQueues_of_pushAll h)
  | rw0 code payload => exact crossesQueues_of_envRxPush h
  | rw1 filler payload crc e => exact crossesQueues_of_envRxPush h
  | rwdone w => exact crossesQueues_of_envRxPush h
  | capw03 y => exact crossesQueues_of_envRxPush h
  | capw4 filler crc e => exact crossesQueues_of_envRxPush h
  | _ => cases hi

/-! ### The COMMAND operations -/

/-- What a COMMAND operation does, where it has a step; the capture is armed, and emptied, for an R2 command alone. -/
structure Issues (s t : State) : Prop where
  idle : s.cuState = .idle
  room : s.txq.length + 2 ≤ Config.txqDepth
  txq : ∃ w0 w1, t.txq = s.txq ++ [w0, w1]
  eq : t = { s with
    rxq := [], txq := t.txq, cuStart := s.nowMs, cuCmd := t.cuCmd, cuShape := t.cuShape, cuStatus := .ok, cuState := .wait,
    hostOut := .nothing, capN := t.capN, capArmed := t.capArmed }
  capture : t.cuShape = .r2 ∧ t.capArmed = true ∧ t.capN = 0 ∨
    t.cuShape ≠ .r2 ∧ t.capArmed = s.capArmed ∧ t.capN = s.capN

theorem issues_of_issueCommand {cmd : BitVec 6} {arg : Word} {rbits : Nat} {shape : Shape} {s t : State} {n : BitVec 3}
    {armed : Bool} (h : issueCommand cmd arg rbits shape { s with capN := n, capArmed := armed } = .next t)
    (hcapture : shape = .r2 ∧ armed = true ∧ n = 0 ∨ shape ≠ .r2 ∧ armed = s.capArmed ∧ n = s.capN) : Issues s t := by
  obtain ⟨hidle, hroom, w0, w1, -, rfl⟩ := issueCommand_next.1 h
  exact ⟨hidle, hroom, ⟨w0, w1, rfl⟩, rfl, hcapture⟩

theorem issues_of_isCommand {i : Instr} (hi : Instr.isCommand i = true) {s t : State} (h : exec i s = .next t) :
    Issues s t := by
  cases i with
  | commandR1 cmd arg want =>
    refine issues_of_issueCommand (n := s.capN) (armed := s.capArmed) h (.inr ⟨?_, rfl, rfl⟩)
    cases want <;> exact nofun
  | commandR2 cmd arg => exact issues_of_issueCommand h (.inl ⟨rfl, rfl, rfl⟩)
  | commandR3 cmd arg =>
    exact issues_of_issueCommand (n := s.capN) (armed := s.capArmed) h (.inr ⟨nofun, rfl, rfl⟩)
  | _ => cases hi

/-! ### Every stimulus -/

/-- What a stimulus can do, where it has a step. The constructors name the agent's step, or what is written. -/
inductive Effect (s : State) : Stimulus → State → Prop where
  | crc7Clr {a} (ha : Stimulus.instr? a = some .crc7Clr) : Effect s a { s with crc7Acc := 0x00, hostOut := .nothing }
  | crc7Byte {a b} (ha : Stimulus.instr? a = some (.crc7Byte b)) :
    Effect s a { s with crc7Acc := crc7ByteStep s.crc7Acc b, hostOut := .nothing }
  | crc16Clr {a} (ha : Stimulus.instr? a = some .crc16Clr) :
    Effect s a { s with crc16Lane := Lanes.zero, hostOut := .nothing }
  | crc16Word {a w} (ha : Stimulus.instr? a = some (.crc16Word w)) :
    Effect s a { s with crc16Lane := crc16x4Word s.crc16Lane w, hostOut := .nothing }
  | crc16Cmp {a e} (ha : Stimulus.instr? a = some (.crc16Cmp e)) :
    Effect s a { s with crc16Match := crc16Verdict e s.crc16Lane, hostOut := .cmpMatch (crc16Verdict e s.crc16Lane) }
  | answers {a} (o : HostOut) : Effect s a (s.answer o)
  | issues {a t i} (ha : Stimulus.instr? a = some i) (hi : Instr.isCommand i = true) (h : Issues s t) : Effect s a t
  | crosses {a t} (h : CrossesQueues s t) : Effect s a t
  | completes : Effect s .cuComplete (completed s)
  | timesOut : Effect s .cuTimeout (recoverFromTimeout s)
  | runsSequencer (pc : Nat) : Effect s (.envSeqRun pc) { s with seqPc := pc }
  | ticks : Effect s .clockTick { s with nowMs := s.nowMs + 1 }
  | resets {t} (h : resetEvent s = .next t) : Effect s .resetEvent t
  | writesBuffer (addr n v : Nat) : Effect s (.bufferWrite addr n v) { s with buffer := s.buffer.write addr n v }

theorem exec_effect {i : Instr} {s t : State} {a : Stimulus} (ha : Stimulus.instr? a = some i) (h : exec i s = .next t) :
    Effect s a t := by
  cases i with
  | crc7Clr => cases h; exact .crc7Clr ha
  | crc7Byte b => cases h; exact .crc7Byte ha
  | crc16Clr => cases h; exact .crc16Clr ha
  | crc16Word w => cases h; exact .crc16Word ha
  | crc16Cmp e => cases h; exact .crc16Cmp ha
  | crc7Rd => cases h; exact .answers _
  | crc16Rd => cases h; exact .answers _
  | cuResult => cases h; exact .answers _
  | cuRdbuf k => cases h; exact .answers _
  | trailer a b c d => cases h; exact .answers _
  | commandR1 | commandR2 | commandR3 => exact .issues ha rfl (issues_of_isCommand rfl h)
  | reserved0 | reservedD | reservedE | reservedF => cases h
  | _ => exact .crosses (crossesQueues_of_isEnvRow rfl h)

theorem presentFrame_next {f : Frame} {s t : State} (h : presentFrame f s = .next t) :
    ∃ i, decode f = .ok i ∧ exec i s = .next t := by
  unfold presentFrame at h
  split at h
  · exact ⟨_, ‹_›, h⟩
  · cases h

theorem crc16FourLaneMem_next {addr count : Nat} {s t : State} (h : crc16FourLaneMem addr count s = .next t) :
    ∃ v, t = s.answer (.crc16 v) := by
  unfold crc16FourLaneMem at h
  split at h
  · split at h
    · cases h; exact ⟨_, rfl⟩
    · cases h
  · cases h

/-- Every step that some agent takes is one of the listed ones. -/
theorem perform_effect {a : Stimulus} {s t : State} (h : perform a s = .next t) : Effect s a t := by
  cases a with
  | present f =>
    obtain ⟨i, hf, hi⟩ := presentFrame_next h
    exact exec_effect (by simp [Stimulus.instr?, hf, Except.toOption]) hi
  | capMove => exact .crosses (crossesQueues_of_capMove h)
  | cuComplete => obtain ⟨-, rfl⟩ := cuComplete_next.1 h; exact .completes
  | cuTimeout => obtain ⟨-, rfl⟩ := cuTimeout_next.1 h; exact .timesOut
  | envTxPop => exact .crosses (crossesQueues_of_envTxPop h)
  | envRxPush w => exact .crosses (crossesQueues_of_envRxPush h)
  | envSeqRun pc => cases h; exact .runsSequencer pc
  | clockTick => cases h; exact .ticks
  | resetEvent => exact .resets h
  | crc16Mem addr count => obtain ⟨v, rfl⟩ := crc16FourLaneMem_next h; exact .answers _
  | bufferWrite addr n v => cases h; exact .writesBuffer addr n v

/-- Where nothing is pending the turn is some agent's, so a step performs a stimulus in every state. -/
theorem step_eq_perform (s : State) : ∃ a rest, step s = perform a { s with pending := rest } := by
  cases hs : s.pending with
  | cons a rest => exact ⟨a, rest, step_of_pending_cons hs⟩
  | nil =>
    have hself : { s with pending := [] } = s := by rw [← hs]
    rw [step_of_pending_nil hs]
    simp only [ownTurn]
    refine ⟨bif completeEnabled s then .cuComplete else bif timeoutEnabled s then .cuTimeout
      else bif captureEnabled s then .capMove else .clockTick, [], ?_⟩
    rw [hself]
    cases completeEnabled s
    · cases timeoutEnabled s
      · cases captureEnabled s <;> rfl
      · rfl
    · rfl

/-! ### What an ending writes -/

section Completed

variable (s : State)

theorem endingKeeps_completeR1 : EndingKeeps s (completeR1 s) := by constructor <;> simp [completeR1]

theorem endingKeeps_completeR2 : EndingKeeps s (completeR2 s) := endingKeeps_update ..

@[simp] theorem completeR1_rxq : (completeR1 s).rxq = s.rxq.drop 2 := by simp [completeR1]

@[simp] theorem completeR1_seqPc : (completeR1 s).seqPc = s.seqPc := by simp [completeR1]

@[simp] theorem completeR1_capArmed : (completeR1 s).capArmed = s.capArmed := by simp [completeR1]

theorem endingKeeps_completed : EndingKeeps s (completed s) := by
  unfold completed
  split
  · exact endingKeeps_completeNone
  · exact endingKeeps_completeR1 s
  · exact endingKeeps_completeR2 s
  · exact endingKeeps_completeR3

theorem completed_seqPc : (completed s).seqPc = s.seqPc := by
  unfold completed
  split
  · rfl
  · exact completeR1_seqPc s
  · rfl
  · rfl

theorem completed_rxq_length_le : (completed s).rxq.length ≤ s.rxq.length := by
  unfold completed
  split
  · simp
  · simp
  · exact le_refl _
  · simp

/-- R181: SH_R2 disarms the capture, and the other endings leave it. -/
theorem completed_capArmed : (completed s).capArmed = true → s.capArmed = true ∧ s.cuShape ≠ .r2 := by
  unfold completed
  split <;> rename_i hshape
  · exact fun h => ⟨h, by simp [hshape]⟩
  · rw [completeR1_capArmed]
    exact fun h => ⟨h, by simp [hshape]⟩
  · exact nofun
  · exact fun h => ⟨h, by simp [hshape]⟩

theorem decodeR1_writtenByBlock (cmd : BitVec 6) (r : BitVec 48) : (decodeR1 cmd r).1.writtenByBlock = true := by
  unfold decodeR1
  split
  · split <;> rfl
  · rfl

theorem decodeR2_writtenByBlock (r : BitVec 136) : (decodeR2 r).1.writtenByBlock = true := by
  unfold decodeR2
  split
  · split <;> rfl
  · rfl

theorem completed_writtenByBlock : (completed s).cuStatus.writtenByBlock = true := by
  unfold completed
  split
  · rfl
  · exact decodeR1_writtenByBlock _ _
  · exact decodeR2_writtenByBlock _
  · rfl

end Completed

/-! ### The invariants -/

theorem State.Inv.withPending {s : State} (hs : s.Inv) (rest : List Stimulus) : ({ s with pending := rest } : State).Inv :=
  { hs with }

theorem State.reset_inv : State.reset.Inv where
  accBit0 := rfl
  capCount := by decide
  capArmed := nofun
  rxqRoom := Nat.zero_le _
  txqRoom := Nat.zero_le _
  waitOk := nofun
  waitArmed := nofun
  statusKind := rfl
  bufferWf := State.reset_buffer_wf

/-- Settles O3: at reset CMDU is idle with status `OK`, the capture is off and every queue is empty. -/
theorem resetMeetsTheInvariants : Obligations.ResetMeetsTheInvariants := State.reset_inv

/-- Settles O2: the event is one update of the reset state, and the fields it sets are not in the table. -/
theorem resetEventGivesTheListedValues : Obligations.ResetEventGivesTheListedValues := by
  unfold Obligations.ResetEventGivesTheListedValues
  exact fun s => ⟨_, rfl, rfl, Lanes.zero_packed, rfl, rfl, rfl, rfl, rfl, rfl, rfl, rfl, rfl, rfl⟩

theorem State.Inv.of_crossesQueues {s t : State} (hs : s.Inv) (h : CrossesQueues s t) : t.Inv := by
  have htxq : t.txq.length ≤ Config.txqDepth := by
    obtain ⟨n, hn⟩ := h.txq
    rw [hn, List.length_drop]
    have := hs.txqRoom
    omega
  have hrxq := h.rxqRoom hs.rxqRoom
  have hcount := h.capCount hs.capCount
  rw [h.eq]
  exact { hs with txqRoom := htxq, rxqRoom := hrxq, capCount := hcount }

theorem State.Inv.of_issues {s t : State} (hs : s.Inv) (h : Issues s t) : t.Inv := by
  have htxq : t.txq.length ≤ Config.txqDepth := by
    obtain ⟨w0, w1, hq⟩ := h.txq
    have := h.room
    simpa [hq] using this
  have hunarmed : s.capArmed ≠ true := fun harmed => by simpa [h.idle] using (hs.capArmed harmed).1
  have hcount : t.capN.toNat ≤ 5 := by
    rcases h.capture with ⟨-, -, hn⟩ | ⟨-, -, hn⟩
    · simp [hn]
    · rw [hn]; exact hs.capCount
  have harmed : t.capArmed = true → t.cuShape = .r2 := by
    rcases h.capture with ⟨hshape, -, -⟩ | ⟨-, ha, -⟩
    · exact fun _ => hshape
    · exact fun h => absurd (ha ▸ h) hunarmed
  have hwaits : t.cuShape = .r2 → t.capArmed = true := by
    rcases h.capture with ⟨-, ha, -⟩ | ⟨hshape, -, -⟩
    · exact fun _ => ha
    · exact fun h => absurd h hshape
  rw [h.eq]
  exact { hs with
    capCount := hcount, capArmed := fun h => ⟨rfl, harmed h⟩, rxqRoom := Nat.zero_le _, txqRoom := htxq,
    waitOk := fun _ => rfl, waitArmed := fun _ => hwaits, statusKind := rfl }

/-- An ending leaves `CU_IDLE`, where the invariants ask no more of the capture than that it is off. -/
theorem State.Inv.of_ending {s t : State} (hs : s.Inv) (hkeeps : EndingKeeps s t) (hidle : t.cuState = .idle)
    (hoff : t.capArmed = false) (hrxq : t.rxq.length ≤ s.rxq.length) (hstatus : t.cuStatus.writtenByBlock = true) :
    t.Inv where
  accBit0 := by rw [hkeeps.crc7Acc]; exact hs.accBit0
  capCount := by rw [hkeeps.capN]; exact hs.capCount
  capArmed := by simp [hoff]
  rxqRoom := hrxq.trans hs.rxqRoom
  txqRoom := by rw [hkeeps.txq]; exact hs.txqRoom
  waitOk := by simp [hidle]
  waitArmed := by simp [hidle]
  statusKind := hstatus
  bufferWf := by rw [hkeeps.buffer]; exact hs.bufferWf

theorem State.Inv.of_completed {s : State} (hs : s.Inv) : (completed s).Inv := by
  have hoff : (completed s).capArmed = false := by
    refine Bool.eq_false_iff.2 fun h => ?_
    obtain ⟨harmed, hshape⟩ := completed_capArmed s h
    exact hshape (hs.capArmed harmed).2
  exact hs.of_ending (endingKeeps_completed s) completed_cuState hoff (completed_rxq_length_le s)
    (completed_writtenByBlock s)

theorem State.Inv.of_effect {a : Stimulus} {s t : State} (hs : s.Inv) (h : Effect s a t) : t.Inv := by
  cases h with
  | crc7Clr => exact { hs with accBit0 := BitVec.getLsbD_zero }
  | crc7Byte => exact { hs with accBit0 := crc7ByteStep_bit0 _ _ }
  | issues ha hi h => exact hs.of_issues h
  | crosses h => exact hs.of_crossesQueues h
  | completes => exact hs.of_completed
  | timesOut => exact hs.of_ending endingKeeps_recoverFromTimeout rfl rfl (Nat.zero_le _) rfl
  | resets h => cases h; exact { State.reset_inv with capArmed := nofun, waitArmed := nofun, bufferWf := hs.bufferWf }
  | writesBuffer addr n v => exact { hs with bufferWf := Memory.write_wf _ _ _ _ hs.bufferWf }
  | _ => exact { hs with }

/-- Settles O4: a step performs a stimulus of some agent, and each effect a stimulus can have keeps the invariants. -/
theorem everyStepKeepsTheInvariants : Obligations.EveryStepKeepsTheInvariants := by
  unfold Obligations.EveryStepKeepsTheInvariants
  intro s t hs hstep
  obtain ⟨a, rest, hperform⟩ := step_eq_perform s
  rw [hperform] at hstep
  exact (hs.withPending rest).of_effect (perform_effect hstep)

/-! ### Who writes what -/

/-- Settles O51: of all effects only an issue writes `CU_WAIT`, and only the two endings and RESET write `CU_IDLE`. -/
theorem onlyCommandsAndEndingsMoveCuState : Obligations.OnlyCommandsAndEndingsMoveCuState := by
  unfold Obligations.OnlyCommandsAndEndingsMoveCuState
  intro a s t hstep hmoved
  cases perform_effect hstep with
  | issues ha hi h => exact .inl ⟨by rw [h.eq], _, ha, hi⟩
  | crosses h => rw [h.eq] at hmoved; exact absurd rfl hmoved
  | completes => exact .inr ⟨completed_cuState, .inl rfl⟩
  | timesOut => exact .inr ⟨rfl, .inr (.inl rfl)⟩
  | resets h => cases h; exact .inr ⟨rfl, .inr (.inr rfl)⟩
  | _ => exact absurd rfl hmoved

/-- Settles O52: an effect that is not one of the five checksum operations keeps all three registers. -/
theorem checksumRegistersHaveOneUnitEach : Obligations.ChecksumRegistersHaveOneUnitEach := by
  unfold Obligations.ChecksumRegistersHaveOneUnitEach
  intro a s t hstep hreset
  cases perform_effect hstep with
  | crc7Clr ha => exact ⟨fun _ => .inl ha, (absurd rfl ·), (absurd rfl ·)⟩
  | crc7Byte ha => exact ⟨fun _ => .inr ⟨_, ha⟩, (absurd rfl ·), (absurd rfl ·)⟩
  | crc16Clr ha => exact ⟨(absurd rfl ·), fun _ => .inl ha, (absurd rfl ·)⟩
  | crc16Word ha => exact ⟨(absurd rfl ·), fun _ => .inr ⟨_, ha⟩, (absurd rfl ·)⟩
  | crc16Cmp ha => exact ⟨(absurd rfl ·), (absurd rfl ·), fun _ => ⟨_, ha⟩⟩
  | issues ha hi h => rw [h.eq]; exact ⟨(absurd rfl ·), (absurd rfl ·), (absurd rfl ·)⟩
  | crosses h => rw [h.eq]; exact ⟨(absurd rfl ·), (absurd rfl ·), (absurd rfl ·)⟩
  | completes =>
    have hkeeps := endingKeeps_completed s
    exact ⟨(absurd hkeeps.crc7Acc ·), (absurd hkeeps.crc16Lane ·), (absurd hkeeps.crc16Match ·)⟩
  | resets => exact absurd rfl hreset
  | _ => exact ⟨(absurd rfl ·), (absurd rfl ·), (absurd rfl ·)⟩

/-- Settles O54: `SEQ_PC` moves by a timeout and by ENV's running of it; `TXQ` grows by an issue, and otherwise loses some
number of words, none for the most part, at its head. -/
theorem sequencerSideChangesOnlyAsListed : Obligations.SequencerSideChangesOnlyAsListed := by
  unfold Obligations.SequencerSideChangesOnlyAsListed
  intro a s t hstep hreset
  cases perform_effect hstep with
  | issues ha hi h =>
    obtain ⟨w0, w1, hq⟩ := h.txq
    refine ⟨fun hpc => ?_, .inl ⟨w0, w1, hq, _, ha, hi⟩⟩
    rw [h.eq] at hpc
    exact absurd rfl hpc
  | crosses h =>
    refine ⟨fun hpc => ?_, .inr h.txq⟩
    rw [h.eq] at hpc
    exact absurd rfl hpc
  | completes => exact ⟨(absurd (completed_seqPc s) ·), .inr ⟨0, (endingKeeps_completed s).txq⟩⟩
  | timesOut => exact ⟨fun _ => .inl ⟨rfl, rfl⟩, .inr ⟨0, rfl⟩⟩
  | runsSequencer pc => exact ⟨fun _ => .inr rfl, .inr ⟨0, rfl⟩⟩
  | resets => exact absurd rfl hreset
  | _ => exact ⟨(absurd rfl ·), .inr ⟨0, rfl⟩⟩

end Sys2Proof.Machine
end

section
/-! What the accumulators hold has no influence on a command, nor on a step of CMDU, CAPTURE, ENV or CLOCK (40_crc7.md R108,
R109). -/

namespace Sys2Proof.Machine

/-- The state with other accumulators in it. -/
def State.withAccumulators (s : State) (acc : Byte) (l : Lanes) : State := { s with crc7Acc := acc, crc16Lane := l }

/-- The operation answers the same whatever the accumulators hold, and leaves them. -/
def IgnoresAccumulators (op : State → Result) : Prop :=
  ∀ (s : State) (acc : Byte) (l : Lanes),
    op (s.withAccumulators acc l) = Result.map (fun t => t.withAccumulators acc l) (op s)

theorem IgnoresAccumulators.andThen {f g : State → Result} (hf : IgnoresAccumulators f) (hg : IgnoresAccumulators g) :
    IgnoresAccumulators fun s => (f s).andThen g := by
  intro s acc l
  simp only [hf s acc l]
  cases f s with
  | next t => exact hg t acc l
  | fault r => rfl
  | refused r => rfl

/-! ### ENV and CAPTURE -/

theorem ignoresAccumulators_envTxPop : IgnoresAccumulators envTxPop := by
  intro s acc l
  simp only [envTxPop, State.withAccumulators]
  cases s.txq <;> rfl

theorem ignoresAccumulators_takeWord (w : Word) : IgnoresAccumulators (takeWord w) := by
  intro s acc l
  have htxq : (s.withAccumulators acc l).txq = s.txq := rfl
  simp only [takeWord, htxq]
  cases s.txq.head? with
  | none => rfl
  | some h =>
    by_cases hw : h = w
    · simp only [if_pos hw]; exact ignoresAccumulators_envTxPop s acc l
    · simp only [if_neg hw]; rfl

theorem ignoresAccumulators_execCmd48 (index : BitVec 6) (arg : Word) (crc : BitVec 7) :
    IgnoresAccumulators (execCmd48 index arg crc) := by
  intro s acc l
  have hpop := (ignoresAccumulators_envTxPop.andThen ignoresAccumulators_envTxPop) s acc l
  have htxq : (s.withAccumulators acc l).txq = s.txq := rfl
  simp only [execCmd48, htxq]
  split
  · split
    · exact hpop
    · rfl
  · rfl

theorem ignoresAccumulators_envRxPush (w : Word) : IgnoresAccumulators (envRxPush w) := by
  intro s acc l
  have hrxq : (s.withAccumulators acc l).rxq = s.rxq := rfl
  simp only [envRxPush, hrxq]
  split <;> rfl

theorem ignoresAccumulators_capMove : IgnoresAccumulators capMove := by
  intro s acc l
  have henabled : captureEnabled (s.withAccumulators acc l) = captureEnabled s := rfl
  simp only [capMove, henabled]
  cases captureEnabled s <;> rfl

theorem ignoresAccumulators_captureIfEnabled : IgnoresAccumulators captureIfEnabled := by
  intro s acc l
  have henabled : captureEnabled (s.withAccumulators acc l) = captureEnabled s := rfl
  simp only [captureIfEnabled, henabled]
  cases captureEnabled s
  · rfl
  · exact ignoresAccumulators_capMove s acc l

theorem ignoresAccumulators_pushAll (ws : List Word) : IgnoresAccumulators (pushAll ws) := by
  induction ws with
  | nil => exact fun _ _ _ => rfl
  | cons w ws ih =>
    exact ((ignoresAccumulators_envRxPush w).andThen ignoresAccumulators_captureIfEnabled).andThen ih

theorem ignoresAccumulators_execResp48 (start : BitVec 2) (index : BitVec 6) (payload : Word) (crc : BitVec 7)
    (e : BitVec 1) : IgnoresAccumulators (execResp48 start index payload crc e) :=
  (ignoresAccumulators_envRxPush _).andThen fun s acc l =>
    ignoresAccumulators_envRxPush _ { s with draws := s.draws + 1 } acc l

theorem ignoresAccumulators_of_isEnvRow {i : Instr} (hi : Instr.isEnvRow i = true) : IgnoresAccumulators (exec i) := by
  cases i with
  | cmd48 index arg crc => exact ignoresAccumulators_execCmd48 index arg crc
  | seqW0 len index argHi => exact ignoresAccumulators_takeWord _
  | seqW1 argLo crc rlen => exact ignoresAccumulators_takeWord _
  | resp48 start index payload crc e => exact ignoresAccumulators_execResp48 start index payload crc e
  | resp136 marker payload crc e =>
    exact fun s acc l => ignoresAccumulators_pushAll _ { s with draws := s.draws + 1 } acc l
  | rw0 code payload => exact ignoresAccumulators_envRxPush _
  | rw1 filler payload crc e => exact ignoresAccumulators_envRxPush _
  | rwdone w => exact ignoresAccumulators_envRxPush _
  | capw03 y => exact ignoresAccumulators_envRxPush _
  | capw4 filler crc e => exact ignoresAccumulators_envRxPush _
  | _ => cases hi

/-! ### The HOST's commands and CMDU -/

theorem ignoresAccumulators_issueCommand (cmd : BitVec 6) (arg : Word) (rbits : Nat) (shape : Shape) :
    IgnoresAccumulators (issueCommand cmd arg rbits shape) := by
  intro s acc l
  have hstate : (s.withAccumulators acc l).cuState = s.cuState := rfl
  have htxq : (s.withAccumulators acc l).txq = s.txq := rfl
  simp only [issueCommand, sendCommand, hstate, htxq]
  by_cases hwait : s.cuState = .wait
  · simp only [if_pos hwait]; rfl
  · by_cases hfull : Config.txqDepth < s.txq.length + 2
    · simp only [if_neg hwait, if_pos hfull]; rfl
    · simp only [if_neg hwait, if_neg hfull]
      cases frameCommand cmd arg rbits <;> rfl

theorem ignoresAccumulators_of_isCommand {i : Instr} (hi : Instr.isCommand i = true) : IgnoresAccumulators (exec i) := by
  cases i with
  | commandR1 cmd arg want => exact ignoresAccumulators_issueCommand _ _ _ _
  | commandR2 cmd arg =>
    exact fun s acc l => ignoresAccumulators_issueCommand _ _ _ _ { s with capN := 0, capArmed := true } acc l
  | commandR3 cmd arg => exact ignoresAccumulators_issueCommand _ _ _ _
  | _ => cases hi

theorem writeResp32_withAccumulators (s : State) (acc : Byte) (l : Lanes) (o : Option Word) :
    (s.withAccumulators acc l).writeResp32 o = (s.writeResp32 o).withAccumulators acc l := by
  cases o <;> rfl

theorem completeR1_withAccumulators (s : State) (acc : Byte) (l : Lanes) :
    completeR1 (s.withAccumulators acc l) = (completeR1 s).withAccumulators acc l :=
  congrArg (fun t : State => raise (decodeR1 s.cuCmd (rsp48AtHead s)).1 t.anyRespBuf)
    (writeResp32_withAccumulators { s with rxq := s.rxq.drop 2 } acc l (decodeR1 s.cuCmd (rsp48AtHead s)).2)

theorem ignoresAccumulators_cuComplete : IgnoresAccumulators cuComplete := by
  intro s acc l
  have henabled : completeEnabled (s.withAccumulators acc l) = completeEnabled s := rfl
  have hshape : (s.withAccumulators acc l).cuShape = s.cuShape := rfl
  simp only [cuComplete, henabled, hshape, completeR1_withAccumulators]
  cases completeEnabled s
  · rfl
  · cases s.cuShape <;> rfl

theorem ignoresAccumulators_cuTimeout : IgnoresAccumulators cuTimeout := by
  intro s acc l
  have henabled : timeoutEnabled (s.withAccumulators acc l) = timeoutEnabled s := rfl
  simp only [cuTimeout, henabled]
  cases timeoutEnabled s <;> rfl

theorem perform_of_instr? {a : Stimulus} {i : Instr} (h : Stimulus.instr? a = some i) : perform a = exec i := by
  cases a with
  | present f =>
    cases hf : decode f with
    | ok j =>
      obtain rfl : j = i := by simpa [Stimulus.instr?, hf, Except.toOption] using h
      exact funext (presentFrame_of_decode hf)
    | error e => simp [Stimulus.instr?, hf, Except.toOption] at h
  | _ => cases h

/-- Settles O53: each operation reads and writes other registers alone, and the composite ones are made of such. -/
theorem commandsIgnoreTheAccumulators : Obligations.CommandsIgnoreTheAccumulators := by
  unfold Obligations.CommandsIgnoreTheAccumulators
  intro a s acc l ha
  suffices h : IgnoresAccumulators (perform a) from h s acc l
  rcases ha with ⟨i, hi, hkind⟩ | hagent | ⟨w, rfl⟩ | ⟨pc, rfl⟩
  · rw [perform_of_instr? hi]
    rcases hkind with hcommand | hrow
    · exact ignoresAccumulators_of_isCommand hcommand
    · exact ignoresAccumulators_of_isEnvRow hrow
  · simp only [List.mem_cons, List.not_mem_nil, or_false] at hagent
    rcases hagent with rfl | rfl | rfl | rfl | rfl
    · exact ignoresAccumulators_cuComplete
    · exact ignoresAccumulators_cuTimeout
    · exact ignoresAccumulators_capMove
    · exact ignoresAccumulators_envTxPop
    · exact fun _ _ _ => rfl
  · exact ignoresAccumulators_envRxPush w
  · exact fun _ _ _ => rfl

end Sys2Proof.Machine
end

section
/-! CRC7: the bit step as a shift register, linearity, the printed table, and what follows of the checksum (40_crc7.md
sections 1, 2 and 4). -/

namespace Sys2Proof.Machine

/-! ### A shift register with feedback, of any width

The CRC7 and the CRC16 bit steps (R102, R122) are this register with their generators. -/

/-- One message bit into a remainder of `n` bits: shift, and feed the generator `g` back where the bit shifted out differs
from the message bit. -/
def lfsrBit {n : Nat} (g c : BitVec n) (m : Bool) : BitVec n :=
  bif c.getLsbD (n - 1) ^^ m then (c <<< 1) ^^^ g else c <<< 1

/-- Message bits in turn. -/
def lfsr {n : Nat} (g c : BitVec n) (ms : List Bool) : BitVec n := ms.foldl (lfsrBit g) c

section Lfsr

variable {n : Nat} (g : BitVec n)

/-- The generator where it is fed back, else 0. -/
def feedback {n : Nat} (g : BitVec n) (x : Bool) : BitVec n := bif x then g else 0#n

theorem feedback_xor (x y : Bool) : feedback g (x ^^ y) = feedback g x ^^^ feedback g y := by
  cases x <;> cases y <;> simp [feedback]

theorem lfsrBit_eq_xor_feedback (c : BitVec n) (m : Bool) :
    lfsrBit g c m = (c <<< 1) ^^^ feedback g (c.getLsbD (n - 1) ^^ m) := by
  simp only [lfsrBit, feedback]
  cases c.getLsbD (n - 1) ^^ m <;> simp

/-- R111 (b), R137 (b) for one bit. -/
theorem lfsrBit_xor (c d : BitVec n) (m k : Bool) : lfsrBit g (c ^^^ d) (m ^^ k) = lfsrBit g c m ^^^ lfsrBit g d k := by
  have hbits : ((c ^^^ d).getLsbD (n - 1) ^^ (m ^^ k)) = ((c.getLsbD (n - 1) ^^ m) ^^ (d.getLsbD (n - 1) ^^ k)) := by
    simp only [BitVec.getLsbD_xor, Bool.xor_assoc, Bool.xor_left_comm]
  rw [lfsrBit_eq_xor_feedback, lfsrBit_eq_xor_feedback, lfsrBit_eq_xor_feedback, hbits, feedback_xor,
    BitVec.shiftLeft_xor_distrib]
  ac_rfl

theorem lfsr_xor (c d : BitVec n) (ms ks : List Bool) (h : ms.length = ks.length) :
    lfsr g (c ^^^ d) (List.zipWith (· ^^ ·) ms ks) = lfsr g c ms ^^^ lfsr g d ks := by
  induction ms generalizing c d ks with
  | nil =>
    obtain rfl : ks = [] := by simpa using h.symm
    rfl
  | cons m ms ih =>
    cases ks with
    | nil => simp at h
    | cons k ks =>
      simp only [lfsr, List.zipWith_cons_cons, List.foldl_cons] at ih ⊢
      rw [lfsrBit_xor, ih _ _ _ (by simpa using h)]

end Lfsr

theorem crc7Bit_eq_lfsrBit : crc7Bit = lfsrBit 0x09#7 := rfl

theorem crc16Bit_eq_lfsrBit : crc16Bit = lfsrBit 0x1021#16 := rfl

/-- The bits of a byte, most significant first. -/
def byteBits (b : Byte) : List Bool := [7, 6, 5, 4, 3, 2, 1, 0].map b.getLsbD

theorem byteBits_xor (a b : Byte) : byteBits (a ^^^ b) = List.zipWith (· ^^ ·) (byteBits a) (byteBits b) := by
  simp [byteBits]

theorem crc7ByteStep_eq_lfsr (acc b : Byte) :
    crc7ByteStep acc b = lfsr 0x09#7 (acc.extractLsb' 1 7) (byteBits b) ++ 0#1 := by
  simp only [crc7ByteStep, crc7Bit_eq_lfsrBit]
  rfl

/-- R111 (b) for one byte. -/
theorem crc7ByteStep_xor (acc acc' b b' : Byte) :
    crc7ByteStep (acc ^^^ acc') (b ^^^ b') = crc7ByteStep acc b ^^^ crc7ByteStep acc' b' := by
  simp only [crc7ByteStep_eq_lfsr, BitVec.extractLsb'_xor, byteBits_xor]
  rw [lfsr_xor _ _ _ (byteBits b) (byteBits b') rfl, BitVec.xor_append, BitVec.xor_self]

/-! ### The printed table (R104, R106) -/

/-- From a zero accumulator the byte step is the printed table. -/
theorem crc7ByteStep_zero : ∀ b : Byte, crc7ByteStep 0#8 b = crc7TableAt b := by decide +kernel

/-- A byte equal to the accumulator shifts it out. -/
theorem crc7ByteStep_self (acc : Byte) (h : acc.getLsbD 0 = false) : crc7ByteStep acc acc = 0#8 := by
  revert acc
  decide +kernel

theorem crc7ByteStep_eq_table (acc b : Byte) (h : acc.getLsbD 0 = false) :
    crc7ByteStep acc b = crc7TableAt (acc ^^^ b) := by
  calc crc7ByteStep acc b
      = crc7ByteStep (0#8 ^^^ acc) ((acc ^^^ b) ^^^ acc) := by
        rw [BitVec.zero_xor, BitVec.xor_comm acc b, BitVec.xor_assoc, BitVec.xor_self, BitVec.xor_zero]
    _ = crc7ByteStep 0#8 (acc ^^^ b) ^^^ crc7ByteStep acc acc := crc7ByteStep_xor ..
    _ = crc7TableAt (acc ^^^ b) := by rw [crc7ByteStep_zero, crc7ByteStep_self acc h, BitVec.xor_zero]

theorem decodePorts_of_opsel_2 {p : Ports} (h : p.opsel = 0x2) : decodePorts p = .crc7Byte p.b := by
  simp [decodePorts, h]

@[simp] theorem exec_crc7Byte (b : Byte) (s : State) :
    exec (.crc7Byte b) s = .next { s with crc7Acc := crc7ByteStep s.crc7Acc b, hostOut := .nothing } := rfl

/-- Settles O12: the row is the byte step by definition, and the byte step is the table where bit 0 is clear. -/
theorem crc7ByteStepsTheAccumulator : Obligations.Crc7ByteStepsTheAccumulator := by
  unfold Obligations.Crc7ByteStepsTheAccumulator
  refine ⟨fun _ => decodePorts_of_opsel_2, fun s b => ⟨exec_crc7Byte b s, fun hbit => ?_⟩⟩
  rw [exec_crc7Byte, crc7ByteStep_eq_table _ _ hbit]

/-! ### The sequence of operations (R108) -/

theorem execAll_append (is js : List Instr) (s : State) :
    execAll (is ++ js) s = Result.andThen (execAll is s) (execAll js) := by
  induction is generalizing s with
  | nil => rfl
  | cons i is ih =>
    simp only [List.cons_append, execAll]
    cases exec i s with
    | next t => exact ih t
    | fault r => rfl
    | refused r => rfl

/-- Bytes in turn fold the byte step; each leaves no result. -/
theorem execAll_crc7Byte (bytes : List Byte) (s : State) (hout : s.hostOut = .nothing) :
    execAll (bytes.map .crc7Byte) s = .next { s with crc7Acc := bytes.foldl crc7ByteStep s.crc7Acc } := by
  induction bytes generalizing s with
  | nil => rfl
  | cons b bytes ih =>
    rw [List.map_cons, execAll_cons_of_next (exec_crc7Byte b s), ih _ rfl, ← hout]
    rfl

/-- Settles O13: the clear starts the fold at 0x00, the bytes fold, and the read returns what they gave. -/
theorem crc7SequenceReturnsTheChecksum : Obligations.Crc7SequenceReturnsTheChecksum := by
  unfold Obligations.Crc7SequenceReturnsTheChecksum
  intro s bytes
  rw [List.append_assoc, List.singleton_append, execAll_cons_of_next (exec_crc7Clr s), execAll_append,
    execAll_crc7Byte _ _ rfl]
  exact execAll_cons_of_next (exec_crc7Rd _) []

/-! ### Linearity, the self-checks and single bits (R111) -/

theorem foldl_crc7ByteStep_xor (a b : List Byte) (h : a.length = b.length) (acc acc' : Byte) :
    (List.zipWith (· ^^^ ·) a b).foldl crc7ByteStep (acc ^^^ acc') =
      a.foldl crc7ByteStep acc ^^^ b.foldl crc7ByteStep acc' := by
  induction a generalizing b acc acc' with
  | nil =>
    obtain rfl : b = [] := by simpa using h.symm
    rfl
  | cons x a ih =>
    cases b with
    | nil => simp at h
    | cons y b =>
      rw [List.zipWith_cons_cons, List.foldl_cons, crc7ByteStep_xor, ih b (by simpa using h)]
      rfl

/-- Settles O14: the byte step is linear, and both folds start at 0. -/
theorem crc7IsLinear : Obligations.Crc7IsLinear := by
  unfold Obligations.Crc7IsLinear
  exact fun a b h => foldl_crc7ByteStep_xor a b h 0 0

theorem crc7_append_singleton (bytes : List Byte) (b : Byte) :
    crc7 (bytes ++ [b]) = crc7ByteStep (crc7 bytes) b := by
  simp [crc7]

theorem foldl_crc7ByteStep_bit0 (bytes : List Byte) (acc : Byte) (h : acc.getLsbD 0 = false) :
    (bytes.foldl crc7ByteStep acc).getLsbD 0 = false := by
  induction bytes generalizing acc with
  | nil => exact h
  | cons b bytes ih => exact ih _ (crc7ByteStep_bit0 acc b)

theorem crc7_bit0 (bytes : List Byte) : (crc7 bytes).getLsbD 0 = false :=
  foldl_crc7ByteStep_bit0 bytes 0 rfl

/-- The end bit added to a value whose bit 0 is clear is the one bit in which the two differ. -/
theorem xor_or_one (x : Byte) (h : x.getLsbD 0 = false) : x ^^^ (x ||| 0x01) = 0x01 := by
  ext i hi
  cases i with
  | zero => simpa using h
  | succ i => simp

theorem crc7_cons_zero (bytes : List Byte) : crc7 (0x00 :: bytes) = crc7 bytes := rfl

theorem crc7_append_self (bytes : List Byte) : crc7 (bytes ++ [crc7 bytes]) = 0x00 :=
  (crc7_append_singleton bytes _).trans (crc7ByteStep_self _ (crc7_bit0 bytes))

theorem crc7_append_self_endBit (bytes : List Byte) : crc7 (bytes ++ [crc7 bytes ||| 0x01]) = 0x12 := by
  rw [crc7_append_singleton, crc7ByteStep_eq_table _ _ (crc7_bit0 bytes), xor_or_one _ (crc7_bit0 bytes)]
  rfl

/-- Settles O15: a zero byte leaves the zero accumulator; the appended checksum meets itself in the accumulator, and the end
bit leaves the table's entry 1. -/
theorem crc7SelfCheck : Obligations.Crc7SelfCheck := by
  unfold Obligations.Crc7SelfCheck
  exact fun bytes => ⟨crc7_cons_zero bytes, crc7_append_self bytes, crc7_append_self_endBit bytes, crc7_bit0 bytes⟩

/-- The generator has constant term 1, so no step takes a non-zero accumulator to 0. -/
theorem eq_zero_of_crc7ByteStep_eq_zero : ∀ acc : Byte, acc.getLsbD 0 = false → crc7ByteStep acc 0#8 = 0#8 → acc = 0#8 := by
  decide +kernel

theorem crc7ByteStep_singleBit_ne_zero : ∀ i < 8, crc7ByteStep 0#8 (1#8 <<< i) ≠ 0#8 := by decide

/-- Two accumulators that differ still differ after any bytes. -/
theorem foldl_crc7ByteStep_ne (bytes : List Byte) {acc acc' : Byte} (h : acc.getLsbD 0 = false)
    (h' : acc'.getLsbD 0 = false) (hne : acc ≠ acc') :
    bytes.foldl crc7ByteStep acc ≠ bytes.foldl crc7ByteStep acc' := by
  induction bytes generalizing acc acc' with
  | nil => exact hne
  | cons b bytes ih =>
    refine ih (crc7ByteStep_bit0 acc b) (crc7ByteStep_bit0 acc' b) fun heq => hne ?_
    have hzero : crc7ByteStep (acc ^^^ acc') 0#8 = 0#8 := by
      have := crc7ByteStep_xor acc acc' b b
      rwa [heq, BitVec.xor_self, BitVec.xor_self] at this
    exact BitVec.xor_eq_zero_iff.1 (eq_zero_of_crc7ByteStep_eq_zero _ (by rw [BitVec.getLsbD_xor, h, h']; rfl) hzero)

/-- One bit of one byte moves the accumulator after that byte. -/
theorem crc7ByteStep_flip_ne (acc b : Byte) {i : Nat} (hi : i < 8) :
    crc7ByteStep acc (b ^^^ (1#8 <<< i)) ≠ crc7ByteStep acc b := by
  intro heq
  have hxor := crc7ByteStep_xor acc acc (b ^^^ (1#8 <<< i)) b
  rw [heq, BitVec.xor_self, BitVec.xor_self, BitVec.xor_comm b, BitVec.xor_assoc, BitVec.xor_self, BitVec.xor_zero] at hxor
  exact crc7ByteStep_singleBit_ne_zero i hi hxor

/-- Settles O16: the accumulators part at the byte with the flipped bit and never meet again. -/
theorem crc7SeesEverySingleBit : Obligations.Crc7SeesEverySingleBit := by
  unfold Obligations.Crc7SeesEverySingleBit
  intro bytes k i hk hi
  have hsplit : bytes = bytes.take k ++ bytes[k] :: bytes.drop (k + 1) := by simp
  rw [List.set_eq_take_append_cons_drop, if_pos hk]
  conv_rhs => rw [hsplit]
  simp only [crc7, List.foldl_append, List.foldl_cons]
  exact foldl_crc7ByteStep_ne _ (crc7ByteStep_bit0 _ _) (crc7ByteStep_bit0 _ _) (crc7ByteStep_flip_ne _ _ hi)

end Sys2Proof.Machine
end

section
/-! CRC16: each lane as a shift register of its own, linearity, the two views, and the word-parallel form
(41_crc16_4lane.md sections 3 to 6). -/

namespace Sys2Proof.Machine

/-! ### A word advances four independent registers (R125) -/

/-- The bits of a swapped word that lane `i` takes, one of each symbol, in the order in which it takes them. -/
def laneBits (x : Word) (i : Nat) : List Bool := [7, 6, 5, 4, 3, 2, 1, 0].map fun m => x.getLsbD (4 * m + (3 - i))

theorem crc16x4Word_eq (l : Lanes) (w : Word) :
    crc16x4Word l w =
      ⟨lfsr 0x1021#16 l.l0 (laneBits (bswap32 w) 0), lfsr 0x1021#16 l.l1 (laneBits (bswap32 w) 1),
       lfsr 0x1021#16 l.l2 (laneBits (bswap32 w) 2), lfsr 0x1021#16 l.l3 (laneBits (bswap32 w) 3)⟩ := by
  simp [crc16x4Word, crc16x4Symbol, symbolOf, laneBits, lfsr, crc16Bit_eq_lfsrBit]

theorem decodePorts_of_opsel_5 {p : Ports} (h : p.opsel = 0x5) : decodePorts p = .crc16Word p.w := by
  simp [decodePorts, h]

@[simp] theorem exec_crc16Word (w : Word) (s : State) :
    exec (.crc16Word w) s = .next { s with crc16Lane := crc16x4Word s.crc16Lane w, hostOut := .nothing } := rfl

/-- Settles O18: symbol by symbol each lane takes its own bit, so the four lanes are four folds. -/
theorem crc16WordAdvancesEachLane : Obligations.Crc16WordAdvancesEachLane := by
  unfold Obligations.Crc16WordAdvancesEachLane
  refine ⟨fun _ => decodePorts_of_opsel_5, fun s w => ?_⟩
  rw [exec_crc16Word, crc16x4Word_eq]
  rfl

/-- Bits that agree at a lane's place in every symbol are the same bits for that lane. -/
theorem laneBits_congr {x y : Word} {i : Nat}
    (h : ∀ m < 8, x.getLsbD (4 * m + (3 - i)) = y.getLsbD (4 * m + (3 - i))) : laneBits x i = laneBits y i :=
  List.map_congr_left fun m hm => h m (by simp at hm; omega)

/-- Settles O24: a lane after a word is a function of the lane before and of that lane's bits. -/
theorem crc16LanesAreIndependent : Obligations.Crc16LanesAreIndependent := by
  unfold Obligations.Crc16LanesAreIndependent
  intro l l' w w'
  simp only [crc16x4Word_eq]
  refine ⟨fun hl hw => ?_, fun hl hw => ?_, fun hl hw => ?_, fun hl hw => ?_⟩
  · rw [hl, laneBits_congr (i := 0) hw]
  · rw [hl, laneBits_congr (i := 1) hw]
  · rw [hl, laneBits_congr (i := 2) hw]
  · rw [hl, laneBits_congr (i := 3) hw]

/-! ### Linearity (R137) -/

/-- The lanewise difference of two sets of accumulators. -/
def Lanes.xor (a b : Lanes) : Lanes := ⟨a.l0 ^^^ b.l0, a.l1 ^^^ b.l1, a.l2 ^^^ b.l2, a.l3 ^^^ b.l3⟩

theorem append4_xor {n : Nat} (a b c d a' b' c' d' : BitVec n) :
    (a ^^^ a') ++ (b ^^^ b') ++ (c ^^^ c') ++ (d ^^^ d') = (a ++ b ++ c ++ d) ^^^ (a' ++ b' ++ c' ++ d') := by
  simp only [BitVec.xor_append]

theorem Lanes.packed_xor (a b : Lanes) : (a.xor b).packed = a.packed ^^^ b.packed := append4_xor ..

theorem bswap32_xor (v w : Word) : bswap32 (v ^^^ w) = bswap32 v ^^^ bswap32 w := by
  simp only [bswap32, BitVec.extractLsb'_xor]
  exact append4_xor ..

theorem laneBits_xor (x y : Word) (i : Nat) :
    laneBits (x ^^^ y) i = List.zipWith (· ^^ ·) (laneBits x i) (laneBits y i) := by
  simp [laneBits]

theorem crc16x4Word_xor (a b : Lanes) (v w : Word) :
    crc16x4Word (a.xor b) (v ^^^ w) = (crc16x4Word a v).xor (crc16x4Word b w) := by
  have hlane (c d : BitVec 16) (x y : Word) (i : Nat) :
      lfsr 0x1021#16 (c ^^^ d) (laneBits (x ^^^ y) i) =
        lfsr 0x1021#16 c (laneBits x i) ^^^ lfsr 0x1021#16 d (laneBits y i) := by
    rw [laneBits_xor, lfsr_xor _ _ _ (laneBits x i) (laneBits y i) rfl]
  simp only [crc16x4Word_eq, Lanes.xor, bswap32_xor, hlane]

theorem foldl_crc16x4Word_xor (a b : List Word) (h : a.length = b.length) (l l' : Lanes) :
    (List.zipWith (· ^^^ ·) a b).foldl crc16x4Word (l.xor l') =
      (a.foldl crc16x4Word l).xor (b.foldl crc16x4Word l') := by
  induction a generalizing b l l' with
  | nil =>
    obtain rfl : b = [] := by simpa using h.symm
    rfl
  | cons v a ih =>
    cases b with
    | nil => simp at h
    | cons w b =>
      rw [List.zipWith_cons_cons, List.foldl_cons, crc16x4Word_xor, ih b (by simpa using h)]
      rfl

/-- The checksum of a whole sequence folds the word step from four zero lanes. -/
theorem crc16FourLane_length (words : List Word) :
    crc16FourLane words words.length = (words.foldl crc16x4Word Lanes.zero).packed := by
  rw [crc16FourLane, crc16Lanes, List.take_length]

theorem crc16x4Word_zero : crc16x4Word Lanes.zero 0 = Lanes.zero := by decide

theorem foldl_crc16x4Word_replicate_zero (n : Nat) :
    (List.replicate n (0 : Word)).foldl crc16x4Word Lanes.zero = Lanes.zero := by
  induction n with
  | zero => rfl
  | succ n ih => rw [List.replicate_succ, List.foldl_cons, crc16x4Word_zero, ih]

theorem crc16FourLane_replicate_zero (n : Nat) : crc16FourLane (List.replicate n 0) n = 0 := by
  have h := crc16FourLane_length (List.replicate n 0)
  rwa [List.length_replicate, foldl_crc16x4Word_replicate_zero, Lanes.zero_packed] at h

theorem crc16FourLane_xor (a b : List Word) (h : a.length = b.length) :
    crc16FourLane (List.zipWith (· ^^^ ·) a b) a.length =
      crc16FourLane a a.length ^^^ crc16FourLane b b.length := by
  have hlen : (List.zipWith (· ^^^ ·) a b).length = a.length := by simp [h]
  rw [← hlen, crc16FourLane_length, hlen, crc16FourLane_length, crc16FourLane_length, ← Lanes.packed_xor,
    ← foldl_crc16x4Word_xor a b h]
  rfl

theorem crc16FourLane_replicate_zero_append (n : Nat) (words : List Word) :
    crc16FourLane (List.replicate n 0 ++ words) (n + words.length) = crc16FourLane words words.length := by
  have h := crc16FourLane_length (List.replicate n 0 ++ words)
  rwa [List.length_append, List.length_replicate, List.foldl_append, foldl_crc16x4Word_replicate_zero,
    ← crc16FourLane_length] at h

/-- Settles O23: zero words leave zero lanes, at the front of a sequence too, and the word step is linear. -/
theorem crc16IsLinear : Obligations.Crc16IsLinear := by
  unfold Obligations.Crc16IsLinear
  exact ⟨crc16FourLane_replicate_zero, crc16FourLane_xor, crc16FourLane_replicate_zero_append⟩

/-! ### The sequence of operations (R134) -/

/-- Words in turn fold the word step; each leaves no result. -/
theorem execAll_crc16Word (words : List Word) (s : State) (hout : s.hostOut = .nothing) :
    execAll (words.map .crc16Word) s = .next { s with crc16Lane := words.foldl crc16x4Word s.crc16Lane } := by
  induction words generalizing s with
  | nil => rfl
  | cons w words ih =>
    rw [List.map_cons, execAll_cons_of_next (exec_crc16Word w s), ih _ rfl, ← hout]
    rfl

/-- Settles O20: the clear starts the fold at zero lanes, the words fold, and the read returns them packed. -/
theorem crc16SequenceReturnsTheChecksum : Obligations.Crc16SequenceReturnsTheChecksum := by
  unfold Obligations.Crc16SequenceReturnsTheChecksum
  intro s words
  refine ⟨words.foldl crc16x4Word Lanes.zero, (crc16FourLane_length words).symm, ?_⟩
  rw [List.append_assoc, List.singleton_append, execAll_cons_of_next (exec_crc16Clr s), execAll_append,
    execAll_crc16Word _ _ rfl, crc16FourLane_length]
  exact execAll_cons_of_next (exec_crc16Rd _) []

/-! ### The lane-major view and the wire view (R126, R127, R218, R222) -/

theorem crc16ToWire_packed (l : Lanes) : crc16ToWire l.packed = l.wire := by
  rw [crc16ToWire, Lanes.ofPacked_packed]

theorem crc16FromWire_toWire (v : BitVec 64) : crc16FromWire (crc16ToWire v) = v := by
  rw [crc16FromWire, crc16ToWire, Lanes.ofWire_wire, Lanes.packed_ofPacked]

theorem crc16ToWire_fromWire (v : BitVec 64) : crc16ToWire (crc16FromWire v) = v := by
  rw [crc16FromWire, crc16ToWire_packed, Lanes.wire_ofWire]

/-- Settles O21: both views list the bits of the same four lanes, and the two words are the halves of the wire view. -/
theorem crc16WireViewsAreInverse : Obligations.Crc16WireViewsAreInverse := by
  unfold Obligations.Crc16WireViewsAreInverse
  refine fun v => ⟨crc16FromWire_toWire v, crc16ToWire_fromWire v, _, _, rfl, ?_⟩
  have hhalves : (crc16ToWire v).extractLsb' 32 32 ++ (crc16ToWire v).extractLsb' 0 32 = crc16ToWire v :=
    BitVec.extractLsb'_append_extractLsb'
  rw [expectedOfTrailer, hhalves, crc16FromWire_toWire]

/-! ### The word-parallel form (R128) -/

/-- Bit `m` of a 16-bit remainder with bits `c` after the eight message bits `x`, bit 7 first, all at once: the remainder
shifted by eight, and the eight bits fed back at the places of the generator's terms 1, x^5 and x^12. Of those the last four
contain what the first four fed back to the top. -/
def eightBitsOn (c x : Nat → Bool) (m : Nat) : Bool :=
  (decide (8 ≤ m) && c (m - 8)) ^^ (decide (m < 8) && fed m) ^^ (decide (5 ≤ m ∧ m < 13) && fed (m - 5)) ^^
    (decide (12 ≤ m) && fed (m - 12))
where
  /-- Bit `i` of what is fed back. -/
  fed (i : Nat) : Bool := c (8 + i) ^^ x i ^^ (decide (i < 4) && (c (12 + i) ^^ x (4 + i)))

theorem lfsrBit_getLsbD {n : Nat} (g c : BitVec n) (m : Bool) (i : Nat) :
    (lfsrBit g c m).getLsbD i = ((c <<< 1).getLsbD i ^^ ((c.getLsbD (n - 1) ^^ m) && g.getLsbD i)) := by
  rw [lfsrBit_eq_xor_feedback, BitVec.getLsbD_xor, feedback]
  cases c.getLsbD (n - 1) ^^ m <;> simp

/-- Bit by bit, or eight bits at once: one lane. -/
theorem lfsr_eightBits_getLsbD (c : BitVec 16) (x : Nat → Bool) {m : Nat} (hm : m < 16) :
    (lfsr 0x1021#16 c ([7, 6, 5, 4, 3, 2, 1, 0].map x)).getLsbD m = eightBitsOn c.getLsbD x m := by
  simp only [lfsr, List.map_cons, List.map_nil, List.foldl_cons, List.foldl_nil]
  interval_cases m <;>
    simp [-BitVec.getLsbD_eq_getElem, lfsrBit_getLsbD, eightBitsOn, eightBitsOn.fed, Bool.xor_comm, Bool.xor_left_comm]

/-- The low half of the new state, before it is spread over the generator's terms, is what the lanes feed back. -/
def wireFed (q : BitVec 64) (x : Word) : Word :=
  q.extractLsb' 32 32 ^^^ (q.extractLsb' 32 32 >>> 16) ^^^ (x >>> 16) ^^^ x

theorem wireFed_getLsbD (q : BitVec 64) (x : Word) {i k : Nat} (hi : i < 8) (hk : k < 4) :
    (wireFed q x).getLsbD (4 * i + k) =
      eightBitsOn.fed (fun j => q.getLsbD (4 * j + k)) (fun j => x.getLsbD (4 * j + k)) i := by
  interval_cases i <;> interval_cases k <;>
    simp [-BitVec.getLsbD_eq_getElem, wireFed, eightBitsOn.fed, Bool.xor_comm, Bool.xor_left_comm]

theorem crc16x4WordWire_eq (q : BitVec 64) (w : Word) :
    crc16x4WordWire q w = (q <<< 32) ^^^ (wireFed q (bswap32 w)).setWidth 64 ^^^
      ((wireFed q (bswap32 w)).setWidth 64 <<< 20) ^^^ ((wireFed q (bswap32 w)).setWidth 64 <<< 48) := rfl

/-- In the word-parallel form every lane does the same at its own place in each symbol. -/
theorem crc16x4WordWire_getLsbD (q : BitVec 64) (w : Word) {m k : Nat} (hm : m < 16) (hk : k < 4) :
    (crc16x4WordWire q w).getLsbD (4 * m + k) =
      eightBitsOn (fun j => q.getLsbD (4 * j + k)) (fun j => (bswap32 w).getLsbD (4 * j + k)) m := by
  have hfed (i : Nat) (hi : i < 8) := wireFed_getLsbD q (bswap32 w) hi hk
  rw [crc16x4WordWire_eq]
  generalize wireFed q (bswap32 w) = f at *
  generalize hc : (fun j => q.getLsbD (4 * j + k)) = c at *
  generalize (fun j => (bswap32 w).getLsbD (4 * j + k)) = x at *
  have hbit (j : Nat) : c j = q.getLsbD (4 * j + k) := (congrFun hc j).symm
  simp only [eightBitsOn, BitVec.getLsbD_xor, BitVec.getLsbD_shiftLeft, BitVec.getLsbD_setWidth]
  interval_cases m <;> interval_cases k <;> simp [← hfed, hbit]

theorem laneOfWire_getLsbD (q : BitVec 64) (i m : Nat) :
    (laneOfWire q i).getLsbD m = q.getLsbD (4 * m + (3 - i)) := by
  by_cases hm : m < 16
  · simp only [laneOfWire, wireBit, BitVec.getLsbD_append, BitVec.getLsbD_ofBool]
    interval_cases m <;> simp
  · rw [BitVec.getLsbD_of_ge _ _ (by omega), BitVec.getLsbD_of_ge _ _ (by omega)]

theorem laneOfWire_crc16x4WordWire (q : BitVec 64) (w : Word) (i : Nat) :
    laneOfWire (crc16x4WordWire q w) i = lfsr 0x1021#16 (laneOfWire q i) (laneBits (bswap32 w) i) := by
  apply BitVec.eq_of_getLsbD_eq
  intro m hm
  rw [laneOfWire_getLsbD, crc16x4WordWire_getLsbD q w hm (by omega), laneBits, lfsr_eightBits_getLsbD _ _ hm]
  simp only [funext (laneOfWire_getLsbD q i)]

/-- R128 for one word: the word-parallel step is the word step on the lanes of the wire view. -/
theorem ofWire_crc16x4WordWire (q : BitVec 64) (w : Word) :
    Lanes.ofWire (crc16x4WordWire q w) = crc16x4Word (Lanes.ofWire q) w := by
  rw [crc16x4Word_eq]
  simp only [Lanes.ofWire, laneOfWire_crc16x4WordWire]

theorem ofWire_zero : Lanes.ofWire 0#64 = Lanes.zero := by decide

/-- Settles O22: the lanes of the folded wire view are the folded lanes, and a wire view is determined by its lanes. -/
theorem crc16WordParallelFormRefines : Obligations.Crc16WordParallelFormRefines := by
  unfold Obligations.Crc16WordParallelFormRefines
  intro words
  have hlanes : Lanes.ofWire (words.foldl crc16x4WordWire 0#64) = words.foldl crc16x4Word Lanes.zero := by
    rw [← ofWire_zero]
    exact (List.foldl_hom Lanes.ofWire fun q w => (ofWire_crc16x4WordWire q w).symm).symm
  rw [crc16FourLane_length, crc16ToWire_packed, ← hlanes, Lanes.wire_ofWire]

/-! ### The trailer (R218) -/

@[simp] theorem exec_trailer (a b c d : BitVec 16) (s : State) :
    exec (.trailer a b c d) s = .next { s with hostOut := .trailer (Lanes.packed ⟨a, b, c, d⟩) } := rfl

theorem crc16Verdict_packed_eq_one {l l' : Lanes} : crc16Verdict l.packed l' = 1 ↔ l = l' := by
  constructor
  · intro h
    by_contra hne
    have hpacked : l.packed ≠ l'.packed := fun he => hne (by rw [← Lanes.ofPacked_packed l, he, Lanes.ofPacked_packed])
    rw [crc16Verdict_of_ne hpacked] at h
    exact absurd h (by decide)
  · rintro rfl
    exact crc16Verdict_of_eq rfl

/-- Settles O25: the row shows its lanes packed, the verdict on packed lanes is their equality, and the frame of a wire view
decodes to the lanes it lists. -/
theorem trailerIsCompared : Obligations.TrailerIsCompared := by
  unfold Obligations.TrailerIsCompared
  intro s a b c d
  have hpacked : a ++ b ++ c ++ d = Lanes.packed ⟨a, b, c, d⟩ := rfl
  rw [hpacked]
  refine ⟨exec_trailer a b c d s,
    ⟨_, execAll_pair_of_next (exec_trailer a b c d s) (exec_crc16Cmp _ _), crc16Verdict_packed_eq_one, rfl⟩, ?_⟩
  rw [crc16ToWire_packed, presentFrame_of_decode (decode_laneTrailer_wire s.crc16Lane), exec_trailer]

end Sys2Proof.Machine
end

section
/-! The HOST's buffer: what a write leaves to be read, and the checksum of its words (00_scope.md section 6, 20_memory.md
sections 2, 3 and 6). -/

namespace Sys2Proof.Machine

namespace Memory

/-! ### Reading (R13, R51) -/

theorem read_succ_ok {m : Memory} {addr n v : Nat} :
    m.read addr (n + 1) = .ok v ↔
      ∃ b u, m.readByte addr = some b ∧ m.read (addr + 1) n = .ok u ∧ v = b.toNat + 256 * u := by
  simp only [Memory.read]
  cases m.readByte addr with
  | none => simp
  | some b => cases m.read (addr + 1) n <;> simp [eq_comm]

theorem readByte_of_read_error {m : Memory} {addr n a : Nat} (h : m.read addr n = .error a) : m.readByte a = none := by
  induction n generalizing addr with
  | zero => cases h
  | succ n ih =>
    simp only [Memory.read] at h
    cases hb : m.readByte addr with
    | none => simp only [hb] at h; cases h; exact hb
    | some b =>
      cases hr : m.read (addr + 1) n with
      | error e => simp only [hb, hr] at h; cases h; exact ih hr
      | ok u => simp [hb, hr] at h

theorem read_lt {m : Memory} {addr n v : Nat} (h : m.read addr n = .ok v) : v < 256 ^ n := by
  induction n generalizing addr v with
  | zero => cases h; decide
  | succ n ih =>
    obtain ⟨b, u, -, hu, rfl⟩ := read_succ_ok.1 h
    have hb := b.isLt
    have := ih hu
    rw [pow_succ]
    omega

/-! ### Reading after writing -/

theorem readByte_write_other (m : Memory) (addr n v a : Nat) (h : a < addr ∨ addr + n ≤ a) :
    (m.write addr n v).readByte a = m.readByte a := by
  induction n generalizing m addr v with
  | zero => rfl
  | succ n ih =>
    rw [Memory.write, ih _ _ _ (by omega), readByte_writeByte_other _ _ _ _ (by omega)]

theorem read_write_same (m : Memory) (addr n v : Nat) : (m.write addr n v).read addr n = .ok (v % 256 ^ n) := by
  induction n generalizing m addr v with
  | zero => simp [Memory.read, Nat.mod_one]
  | succ n ih =>
    have hlow : (m.write addr (n + 1) v).readByte addr = some (BitVec.ofNat 8 v) := by
      rw [Memory.write, readByte_write_other _ _ _ _ _ (.inl (Nat.lt_succ_self addr)), readByte_writeByte_same]
    refine read_succ_ok.2 ⟨_, _, hlow, ih _ _ _, ?_⟩
    rw [pow_succ', Nat.mod_mul]
    rfl

/-! ### The words of the buffer (R63) -/

theorem readWords_succ_ok {m : Memory} {addr n : Nat} {ws : List Word} :
    m.readWords addr (n + 1) = .ok ws ↔
      ∃ v vs, m.read addr 4 = .ok v ∧ m.readWords (addr + 4) n = .ok vs ∧ ws = BitVec.ofNat 32 v :: vs := by
  simp only [Memory.readWords]
  cases m.read addr 4 with
  | error e => simp
  | ok v => cases m.readWords (addr + 4) n <;> simp [eq_comm]

theorem readByte_of_readWords_error {m : Memory} {addr n a : Nat} (h : m.readWords addr n = .error a) :
    m.readByte a = none := by
  induction n generalizing addr with
  | zero => cases h
  | succ n ih =>
    simp only [Memory.readWords] at h
    cases hv : m.read addr 4 with
    | error e => simp only [hv] at h; cases h; exact readByte_of_read_error hv
    | ok v =>
      cases hvs : m.readWords (addr + 4) n with
      | error e => simp only [hv, hvs] at h; cases h; exact ih hvs
      | ok vs => simp [hv, hvs] at h

theorem length_of_readWords {m : Memory} {addr n : Nat} {ws : List Word} (h : m.readWords addr n = .ok ws) :
    ws.length = n := by
  induction n generalizing addr ws with
  | zero => cases h; rfl
  | succ n ih =>
    obtain ⟨v, vs, -, hvs, rfl⟩ := readWords_succ_ok.1 h
    rw [List.length_cons, ih hvs]

theorem read_of_readWords {m : Memory} {addr n : Nat} {ws : List Word} (h : m.readWords addr n = .ok ws) (k : Nat)
    (hk : k < ws.length) : m.read (addr + 4 * k) 4 = .ok (ws[k]).toNat := by
  induction n generalizing addr ws k with
  | zero => cases h; simp at hk
  | succ n ih =>
    obtain ⟨v, vs, hv, hvs, rfl⟩ := readWords_succ_ok.1 h
    cases k with
    | zero =>
      have hlt : v < 4294967296 := read_lt hv
      simpa [Nat.mod_eq_of_lt hlt] using hv
    | succ k =>
      have htail := ih hvs k (by simpa using hk)
      rwa [show addr + 4 + 4 * k = addr + 4 * (k + 1) by omega] at htail

end Memory

@[simp] theorem perform_crc16Mem (addr count : Nat) (s : State) :
    perform (.crc16Mem addr count) s = crc16FourLaneMem addr count s := rfl

/-- Settles O26: alignment decides the refusal, and reading the words decides between the checksum and the fault; a word is
a little-endian read below 2^32. -/
theorem crc16MemReadsTheBuffer : Obligations.Crc16MemReadsTheBuffer := by
  unfold Obligations.Crc16MemReadsTheBuffer
  intro s addr count
  simp only [perform_crc16Mem, crc16FourLaneMem]
  refine ⟨fun hmis => if_neg hmis, fun ws halign hws => ⟨?answers, ?_, ?_⟩, fun a halign herr => ⟨?faults, ?_⟩⟩
  case answers => rw [if_pos halign, hws]; rfl
  case faults => rw [if_pos halign, herr]
  · exact Memory.length_of_readWords hws
  · exact Memory.read_of_readWords hws
  · exact Memory.readByte_of_readWords_error herr

/-- Settles O27: the write is the step by definition; what it wrote is read back byte by byte, lowest address first. -/
theorem bufferReadsWhatWasWritten : Obligations.BufferReadsWhatWasWritten := by
  unfold Obligations.BufferReadsWhatWasWritten
  exact ⟨fun _ _ _ _ => rfl,
    fun m addr n v => ⟨Memory.read_write_same m addr n v, fun a => Memory.readByte_write_other m addr n v a⟩⟩

end Sys2Proof.Machine
end

section
/-! The command framer: where the fields of a packet stand in it and in the two command words (42_command_framer.md sections 1
and 3). -/

namespace Sys2Proof.Machine

/-! ### The packet (R71, R150) -/

/-- R150: with bit 0 of the checksum clear, the sixth byte is the seven checksum bits and the end bit. -/
theorem commandByte5_eq (cmd : BitVec 6) (arg : Word) :
    commandByte5 cmd arg = (crc7 (commandHead cmd arg)).extractLsb' 1 7 ++ 1#1 := by
  apply BitVec.eq_of_getLsbD_eq
  intro i hi
  simp only [commandByte5, BitVec.getLsbD_append, BitVec.getLsbD_or, BitVec.getLsbD_extractLsb']
  interval_cases i <;> simp

theorem commandPacket_eq_packCmd48 (cmd : BitVec 6) (arg : Word) :
    commandPacket cmd arg = packCmd48 cmd arg ((crc7 (commandHead cmd arg)).extractLsb' 1 7) := by
  rw [commandPacket, commandByte5_eq]
  apply BitVec.eq_of_getLsbD_eq
  intro i hi
  simp only [commandByte0, packCmd48, BitVec.getLsbD_append]
  interval_cases i <;> simp

theorem commandPacket_fixed (cmd : BitVec 6) (arg : Word) : cmd48FixedOk (commandPacket cmd arg) = true := by
  rw [commandPacket_eq_packCmd48, packCmd48_fixed]

/-- A start bit 0 with a direction bit 1 above it is the two bits 01. -/
theorem extractLsb'_two_eq_01 {n : Nat} {v : BitVec n} {k : Nat} (hstart : v.getLsbD (k + 1) = false)
    (hdirection : v.getLsbD k = true) : v.extractLsb' k 2 = 0b01#2 := by
  ext i hi
  interval_cases i
  · simpa using hdirection
  · simpa using hstart

/-- R11: the bytes of a packet assembled from its first byte, its argument and its last byte. -/
theorem map_byte48_append (first last : Byte) (arg : Word) :
    (List.range 6).map (byte48 (first ++ arg ++ last)) =
      [first, arg.extractLsb' 24 8, arg.extractLsb' 16 8, arg.extractLsb' 8 8, arg.extractLsb' 0 8, last] := by
  simp only [List.range, List.range.loop, List.map_cons, List.map_nil, List.cons.injEq, and_true]
  refine ⟨?_, ?_, ?_, ?_, ?_, ?_⟩ <;>
    · ext i hi
      simp only [byte48, BitVec.getElem_extractLsb', BitVec.getLsbD_append]
      interval_cases i <;> simp

/-- R159 (b): the sixth byte is the checksum of the first five with the end bit, so the six leave 0x12. -/
theorem crc7_bytes_commandPacket (cmd : BitVec 6) (arg : Word) :
    crc7 ((List.range 6).map (byte48 (commandPacket cmd arg))) = 0x12#8 := by
  rw [commandPacket, map_byte48_append]
  exact crc7_append_self_endBit (commandHead cmd arg)

/-! ### The two words (R75, R76, R152) -/

theorem packCmd48_high (index : BitVec 6) (arg : Word) (crc : BitVec 7) :
    (packCmd48 index arg crc).extractLsb' 24 24 = 0#1 ++ 1#1 ++ index ++ arg.extractLsb' 16 16 := by
  apply BitVec.eq_of_getLsbD_eq
  intro i hi
  simp only [packCmd48, BitVec.getLsbD_append, BitVec.getLsbD_extractLsb']
  interval_cases i <;> simp

theorem packCmd48_low (index : BitVec 6) (arg : Word) (crc : BitVec 7) :
    (packCmd48 index arg crc).extractLsb' 0 24 = arg.extractLsb' 0 16 ++ crc ++ 1#1 := by
  apply BitVec.eq_of_getLsbD_eq
  intro i hi
  simp only [packCmd48, BitVec.getLsbD_append, BitVec.getLsbD_extractLsb']
  interval_cases i <;> simp

section Words

variable {cmd : BitVec 6} {arg : Word} {rbits : Nat} {w0 w1 : Word}

theorem frameCommand_eq_some :
    frameCommand cmd arg rbits = some (w0, w1) ↔
      ∃ rlen, rlenOf rbits = some rlen ∧ Config.cmdLenCode ++ (commandPacket cmd arg).extractLsb' 24 24 = w0 ∧
        (commandPacket cmd arg).extractLsb' 0 24 ++ rlen = w1 := by
  unfold frameCommand
  cases rlenOf rbits <;> simp

/-- R75, R76: the two words are packed from the halves of the argument. -/
theorem words_of_frameCommand (h : frameCommand cmd arg rbits = some (w0, w1)) :
    ∃ rlen, rlenOf rbits = some rlen ∧ w0 = packSeqW0 Config.cmdLenCode cmd (arg.extractLsb' 16 16) ∧
      w1 = packSeqW1 (arg.extractLsb' 0 16) ((crc7 (commandHead cmd arg)).extractLsb' 1 7) rlen := by
  obtain ⟨rlen, hrlen, rfl, rfl⟩ := frameCommand_eq_some.1 h
  refine ⟨rlen, hrlen, ?_, ?_⟩
  · rw [commandPacket_eq_packCmd48, packCmd48_high]
    apply BitVec.eq_of_getLsbD_eq
    intro i hi
    simp only [packSeqW0, BitVec.getLsbD_append]
    interval_cases i <;> simp
  · rw [commandPacket_eq_packCmd48, packCmd48_low]
    rfl

/-- R152: between the length codes the two words carry the packet. -/
theorem packetOfWords_of_frameCommand (h : frameCommand cmd arg rbits = some (w0, w1)) :
    packetOfWords w0 w1 = commandPacket cmd arg := by
  obtain ⟨rlen, -, rfl, rfl⟩ := frameCommand_eq_some.1 h
  rw [packetOfWords]
  have hhigh : (Config.cmdLenCode ++ (commandPacket cmd arg).extractLsb' 24 24).extractLsb' 0 24 =
      (commandPacket cmd arg).extractLsb' 24 24 := BitVec.extractLsb'_append_eq_right
  have hlow : ((commandPacket cmd arg).extractLsb' 0 24 ++ rlen).extractLsb' 8 24 =
      (commandPacket cmd arg).extractLsb' 0 24 := BitVec.extractLsb'_append_eq_left
  rw [hhigh, hlow]
  exact BitVec.extractLsb'_append_extractLsb'

/-- R80, R92: the three admitted lengths and their codes. -/
theorem rlenOf_some {rlen : BitVec 8} (h : rlenOf rbits = some rlen) :
    rbits = 0 ∧ rlen = 0x00 ∨ rbits = 48 ∧ rlen = 0x2F ∨ rbits = 136 ∧ rlen = 0x87 := by
  unfold rlenOf at h
  split at h
  case isTrue h0 => cases h; exact .inl ⟨h0, rfl⟩
  case isFalse =>
    split at h
    case isTrue hbits =>
      cases h
      rcases hbits with rfl | rfl
      · exact .inr (.inl ⟨rfl, rfl⟩)
      · exact .inr (.inr ⟨rfl, rfl⟩)
    case isFalse => cases h

/-- The length code gives back the length. -/
theorem rbits_of_rlenOf {rlen : BitVec 8} (h : rlenOf rbits = some rlen) :
    rbits = if rlen = 0 then 0 else rlen.toNat + 1 := by
  rcases rlenOf_some h with ⟨rfl, rfl⟩ | ⟨rfl, rfl⟩ | ⟨rfl, rfl⟩ <;> rfl

/-- R159 (c): every field of the two words, read back. -/
theorem fields_of_frameCommand (h : frameCommand cmd arg rbits = some (w0, w1)) :
    w0.extractLsb' 24 8 = Config.cmdLenCode ∧ w0.extractLsb' 16 6 = cmd ∧
      w0.extractLsb' 0 16 ++ w1.extractLsb' 16 16 = arg ∧ rlenOf rbits = some (w1.extractLsb' 0 8) ∧
      seqW0FixedOk w0 = true ∧ seqW1FixedOk w1 = true := by
  obtain ⟨rlen, hrlen, rfl, rfl⟩ := words_of_frameCommand h
  refine ⟨packSeqW0_len .., packSeqW0_index .., ?_, ?_, packSeqW0_fixed .., packSeqW1_fixed ..⟩
  · rw [packSeqW0_argHi, packSeqW1_argLo]
    exact BitVec.extractLsb'_append_extractLsb'
  · rw [packSeqW1_rlen, hrlen]

end Words

theorem cmdLenCode_eq : Config.cmdLenCode = 48#8 ∨ Config.cmdLenCode = 47#8 := by
  unfold Config.cmdLenCode
  cases Config.cmdLenIs47 <;> simp

/-- Settles O28: the packet is packed from its fields and the two words are packed from the packet's, so each field is read
where it was packed; the three admitted lengths have one length code each. -/
theorem commandWordsHoldTheFields : Obligations.CommandWordsHoldTheFields := by
  unfold Obligations.CommandWordsHoldTheFields
  refine ⟨cmdLenCode_eq, fun cmd arg => ?_⟩
  obtain ⟨h47, h46, h0⟩ := cmd48FixedOk_iff.1 (commandPacket_fixed cmd arg)
  refine ⟨commandPacket_eq_packCmd48 cmd arg, extractLsb'_two_eq_01 h47 h46, h0, crc7_bytes_commandPacket cmd arg, ?_⟩
  intro rbits w0 w1 hframe
  obtain ⟨hlen, hcmd, harg, hrlen, hw0, hw1⟩ := fields_of_frameCommand hframe
  obtain ⟨h23, h22⟩ := seqW0FixedOk_iff.1 hw0
  refine ⟨hlen, extractLsb'_two_eq_01 h23 h22, hcmd, harg, seqW1FixedOk_iff.1 hw1,
    packetOfWords_of_frameCommand hframe, ?_⟩
  rcases rlenOf_some hrlen with ⟨rfl, h⟩ | ⟨rfl, h⟩ | ⟨rfl, h⟩ <;> exact h

theorem frameCommand_eq_none {cmd : BitVec 6} {arg : Word} {rbits : Nat} :
    frameCommand cmd arg rbits = none ↔ rbits ≠ 0 ∧ rbits ≠ 48 ∧ rbits ≠ 136 := by
  rw [← Option.not_isSome_iff_eq_none, Option.isSome_iff_exists, frameCommand_some_iff]
  tauto

/-- Settles O29: the words give back the index, the argument and the length code, and the length code the length. -/
theorem frameCommandIsInjective : Obligations.FrameCommandIsInjective := by
  unfold Obligations.FrameCommandIsInjective
  refine ⟨fun cmd arg rbits => frameCommand_eq_none, ?_⟩
  rintro cmd arg rbits cmd' arg' rbits' ⟨w0, w1⟩ h h'
  obtain ⟨-, hcmd, harg, hrlen, -, -⟩ := fields_of_frameCommand h
  obtain ⟨-, hcmd', harg', hrlen', -, -⟩ := fields_of_frameCommand h'
  exact ⟨hcmd.symm.trans hcmd', harg.symm.trans harg', (rbits_of_rlenOf hrlen).trans (rbits_of_rlenOf hrlen').symm⟩

end Sys2Proof.Machine
end

section
/-! A COMMAND's stale words and the HOST's reads (43_response_decoder.md R177, 20_memory.md R58, 70_reset_and_hazards.md
R278). -/

namespace Sys2Proof.Machine

/-! ### After a COMMAND (R278) -/

theorem Issues.rxq_eq_nil {s t : State} (h : Issues s t) : t.rxq = [] := by rw [h.eq]

/-- Every shape counts words that are not there: words of `RXQ`, which is cleared, or of the capture, which is emptied. -/
theorem Issues.replyReady_eq_false {s t : State} (h : Issues s t) : replyReady t = false := by
  have hq := h.rxq_eq_nil
  refine Bool.eq_false_iff.2 fun hready => ?_
  cases hshape : t.cuShape with
  | none => simpa [hq] using (replyReady_of_none hshape).1 hready
  | r1 => simpa [hq] using (replyReady_of_r1_or_r3 (.inl hshape)).1 hready
  | r3 => simpa [hq] using (replyReady_of_r1_or_r3 (.inr hshape)).1 hready
  | r2 =>
    have hfive := (replyReady_of_r2 hshape).1 hready
    rcases h.capture with ⟨-, -, hzero⟩ | ⟨hne, -, -⟩
    · rw [hzero] at hfive
      exact absurd hfive (by decide)
    · exact hne hshape

/-- Settles O33: a COMMAND that has a step issues, and an issue clears `RXQ` and leaves no reply ready. -/
theorem staleWordsAreNoReply : Obligations.StaleWordsAreNoReply := by
  unfold Obligations.StaleWordsAreNoReply
  intro s t i hi h
  have hissues := issues_of_isCommand hi h
  exact ⟨hissues.rxq_eq_nil, hissues.replyReady_eq_false⟩

/-! ### The reads (R58, R177) -/

theorem decodePorts_of_opsel_C {p : Ports} (h : p.opsel = 0xC) : decodePorts p = .cuRdbuf p.k := by
  simp [decodePorts, h]

@[simp] theorem exec_cuRdbuf (k : BitVec 4) (s : State) :
    exec (.cuRdbuf k) s = .next { s with hostOut := .respByte (shownRespByte k s) } := rfl

theorem shownRespByte_of_idle {s : State} (hidle : s.cuState = .idle) (k : BitVec 4) (hk : k.toNat < 16) :
    shownRespByte k s = s.respBuf[k.toNat] := by
  simp [shownRespByte, hidle]

/-- Settles O35: the code selects the row with its operand, and in `CU_IDLE` the byte shown is the buffer's. -/
theorem cuRdbufReturnsTheByte : Obligations.CuRdbufReturnsTheByte := by
  unfold Obligations.CuRdbufReturnsTheByte
  refine ⟨fun _ => decodePorts_of_opsel_C, fun s k => ⟨fun hidle hk => ?_, fun _ => ⟨_, exec_cuRdbuf k s⟩⟩⟩
  rw [exec_cuRdbuf, shownRespByte_of_idle hidle k hk]

/-- Settles O36: each read is an update of the result port with a value that does not depend on what the port held. -/
theorem readsHaveNoSideEffects : Obligations.ReadsHaveNoSideEffects := by
  unfold Obligations.ReadsHaveNoSideEffects
  intro s i hi
  simp only [List.mem_cons, List.not_mem_nil, or_false] at hi
  rcases hi with (rfl | rfl | rfl) | ⟨k, rfl⟩
  · exact ⟨_, exec_crc7Rd s, execAll_pair_of_next (exec_crc7Rd s) (exec_crc7Rd _)⟩
  · exact ⟨_, exec_crc16Rd s, execAll_pair_of_next (exec_crc16Rd s) (exec_crc16Rd _)⟩
  · exact ⟨_, exec_cuResult s, execAll_pair_of_next (exec_cuResult s) (exec_cuResult _)⟩
  · exact ⟨_, exec_cuRdbuf k s, execAll_pair_of_next (exec_cuRdbuf k s) (exec_cuRdbuf k _)⟩

end Sys2Proof.Machine
end

section
/-! The units of the wire and of the two queues: what leaves `TXQ`, what enters `RXQ`, and how a response arrives
(30_encoding.md sections 1 and 2, 43_response_decoder.md section 3). -/

namespace Sys2Proof.Machine

/-! ### ENV's two steps (R178) -/

theorem envRxPush_of_room {w : Word} {s : State} (h : s.rxq.length < Config.rxqDepth) :
    envRxPush w s = .next { s with rxq := s.rxq ++ [w] } := if_pos h

theorem envRxPush_of_full {w : Word} {s : State} (h : Config.rxqDepth ≤ s.rxq.length) :
    envRxPush w s = .refused (.notEnabled .envRxPush) := if_neg (Nat.not_lt.2 h)

theorem envTxPop_of_cons {w : Word} {rest : List Word} {s : State} (h : s.txq = w :: rest) :
    envTxPop s = .next { s with txq := rest } := envTxPop_next.2 ⟨w, rest, h, rfl⟩

/-- Settles O44: each step by the law of its operation. -/
theorem environmentSteps : Obligations.EnvironmentSteps := by
  unfold Obligations.EnvironmentSteps
  refine fun s w => ⟨fun rest h => envTxPop_of_cons h, fun h u hstep => ?empty, fun h => envRxPush_of_room h,
    fun h u hstep => ?full, rfl⟩
  case empty =>
    obtain ⟨w', rest, hcons, -⟩ := envTxPop_next.1 hstep
    simp [h] at hcons
  case full => exact absurd (envRxPush_next.1 hstep).1 (Nat.not_lt.2 h)

/-- Settles O38: each of the five rows is the push of its packed word. -/
theorem replyWordsEnterRxq : Obligations.ReplyWordsEnterRxq := by
  unfold Obligations.ReplyWordsEnterRxq
  intro s i w hrow
  have hpush : exec i s = envRxPush w s := by
    rcases hrow with ⟨code, payload, rfl, rfl⟩ | ⟨filler, payload, crc, e, rfl, rfl⟩ | rfl | rfl |
      ⟨filler, crc, e, rfl, rfl⟩ <;> rfl
  rw [hpush]
  exact ⟨envRxPush_of_room, envRxPush_of_full⟩

/-! ### What leaves `TXQ` -/

theorem takeWord_of_other {w h : Word} {rest : List Word} {s : State} (hq : s.txq = h :: rest) (hne : h ≠ w) :
    takeWord w s = .refused .notAtTxqHead := by
  simp [takeWord, hq, hne]

/-- Settles O39: each of the two rows takes its packed word from the head. -/
theorem commandWordsLeaveTxq : Obligations.CommandWordsLeaveTxq := by
  unfold Obligations.CommandWordsLeaveTxq
  intro s i w rest hrow
  have htake : exec i s = takeWord w s := by
    rcases hrow with ⟨len, index, argHi, rfl, rfl⟩ | ⟨argLo, crc, rlen, rfl, rfl⟩ <;> rfl
  rw [htake]
  exact ⟨fun hq => takeWord_next.2 ⟨rest, hq, rfl⟩, fun h hq hne => takeWord_of_other hq hne⟩

theorem exec_cmd48_of_head {s : State} {index : BitVec 6} {arg : Word} {crc : BitVec 7} {w0 w1 : Word} {rest : List Word}
    (hq : s.txq = w0 :: w1 :: rest) (hpacket : packetOfWords w0 w1 = packCmd48 index arg crc) :
    exec (.cmd48 index arg crc) s = .next { s with txq := rest } := by
  change execCmd48 index arg crc s = _
  simp only [execCmd48, hq, if_pos hpacket, envTxPop_of_cons hq]
  exact envTxPop_of_cons (s := { s with txq := w1 :: rest }) rfl

/-- The words that a COMMAND pushes are framed from its own index and argument. -/
theorem txq_of_command {s t : State} {i : Instr} {cmd : BitVec 6} {arg : Word}
    (hi : (∃ want, i = .commandR1 cmd arg want) ∨ i = .commandR2 cmd arg ∨ i = .commandR3 cmd arg)
    (h : exec i s = .next t) :
    ∃ rbits w0 w1, frameCommand cmd arg rbits = some (w0, w1) ∧ t.txq = s.txq ++ [w0, w1] := by
  obtain ⟨rbits, shape, n, armed, hexec⟩ : ∃ rbits shape n armed,
      exec i s = issueCommand cmd arg rbits shape { s with capN := n, capArmed := armed } := by
    rcases hi with ⟨want, rfl⟩ | rfl | rfl
    · exact ⟨_, _, s.capN, s.capArmed, rfl⟩
    · exact ⟨_, _, _, _, exec_commandR2 cmd arg s⟩
    · exact ⟨_, _, s.capN, s.capArmed, rfl⟩
  rw [hexec] at h
  obtain ⟨-, -, w0, w1, hframe, rfl⟩ := issueCommand_next.1 h
  exact ⟨rbits, w0, w1, hframe, rfl⟩

/-- Settles O40: CMD48 pops the two words that carry it, and the words of an issued command carry the packet that its index,
argument and CRC7 pack to. -/
theorem commandPacketGoesOut : Obligations.CommandPacketGoesOut := by
  unfold Obligations.CommandPacketGoesOut
  refine ⟨fun s index arg crc w0 w1 rest hq hpacket => exec_cmd48_of_head hq hpacket, ?_⟩
  intro s t i cmd arg hi hempty h
  obtain ⟨rbits, w0, w1, hframe, hq⟩ := txq_of_command hi h
  rw [hempty] at hq
  refine exec_cmd48_of_head hq ?_
  rw [packetOfWords_of_frameCommand hframe, commandPacket_eq_packCmd48]

/-! ### How a response arrives -/

/-- Settles O41: two pushes, of the two words the response is cut into. -/
theorem resp48ArrivesAsTwoWords : Obligations.Resp48ArrivesAsTwoWords := by
  unfold Obligations.Resp48ArrivesAsTwoWords
  intro s start index payload crc e hroom
  refine ⟨_, _, s.draws + 1, ?_, rsp48OfWords_of_rsp48 ((Config.freeWord s.draws).extractLsb' 0 16)
    (packResp48 start index payload crc e)⟩
  change execResp48 start index payload crc e s = _
  rw [execResp48, envRxPush_of_room (by omega)]
  have hsecond : ∀ w0 : Word, (s.rxq ++ [w0]).length < Config.rxqDepth := fun w0 => by
    rwa [List.length_append]
  refine (envRxPush_of_room (hsecond _)).trans ?_
  simp only [List.append_assoc, List.singleton_append]

/-- With `RXQ` empty and the capture armed a pushed word goes straight to its place in the capture file. -/
theorem pushThenCapture_of_empty {s : State} {w : Word} (hq : s.rxq = []) (harmed : s.capArmed = true)
    (h5 : s.capN.toNat < 5) :
    pushThenCapture w s = .next { s with cap := s.cap.set s.capN.toNat w h5, capN := s.capN + 1 } := by
  have hpush : envRxPush w s = .next { s with rxq := [w] } := by
    rw [envRxPush_of_room (by simp [hq, Config.rxqDepth]), hq]
    rfl
  have henabled : captureEnabled { s with rxq := [w] } = true := captureEnabled_iff.2 ⟨harmed, h5, Nat.one_pos⟩
  rw [pushThenCapture, hpush]
  simp only [Result.andThen, captureIfEnabled, henabled, cond_true]
  refine capMove_next.2 ⟨henabled, ?_⟩
  rw [captureWord_of_head (s := { s with rxq := [w] }) rfl h5, hq]

theorem pushAll_cons_of_empty {s : State} (hq : s.rxq = []) (harmed : s.capArmed = true) (cap : Vector Word 5)
    (n : BitVec 3) (h5 : n.toNat < 5) (w : Word) (ws : List Word) :
    pushAll (w :: ws) { s with cap := cap, capN := n } =
      pushAll ws { s with cap := cap.set n.toNat w h5, capN := n + 1 } := by
  rw [pushAll, pushThenCapture_of_empty (s := { s with cap := cap, capN := n }) hq harmed h5, Result.andThen]

/-- Five words into an armed and empty capture fill it. -/
theorem pushAll_five {s : State} (w0 w1 w2 w3 w4 : Word) (harmed : s.capArmed = true) (hn : s.capN = 0)
    (hq : s.rxq = []) :
    pushAll [w0, w1, w2, w3, w4] s = .next { s with cap := #v[w0, w1, w2, w3, w4], capN := 5 } := by
  have hcap : ((((s.cap.set 0 w0).set 1 w1).set 2 w2).set 3 w3).set 4 w4 = #v[w0, w1, w2, w3, w4] := by
    ext i hi
    interval_cases i <;> simp
  have hempty : s = { s with cap := s.cap, capN := 0 } := by rw [← hn]
  rw [hempty, pushAll_cons_of_empty hq harmed _ 0 (by decide), pushAll_cons_of_empty hq harmed _ (0 + 1) (by decide),
    pushAll_cons_of_empty hq harmed _ (0 + 1 + 1) (by decide),
    pushAll_cons_of_empty hq harmed _ (0 + 1 + 1 + 1) (by decide),
    pushAll_cons_of_empty hq harmed _ (0 + 1 + 1 + 1 + 1) (by decide)]
  exact congrArg (fun cap => Host.Outcome.next { s with cap := cap, capN := 5 }) hcap

/-- R82: the five words that a 136-bit response is cut into assemble to it. -/
theorem rsp136OfCap_captureWords (r : BitVec 136) (filler : BitVec 24) :
    rsp136OfCap #v[r.extractLsb' 104 32, r.extractLsb' 72 32, r.extractLsb' 40 32, r.extractLsb' 8 32,
      filler ++ r.extractLsb' 0 8] = r := by
  have hlast : (filler ++ r.extractLsb' 0 8).extractLsb' 0 8 = r.extractLsb' 0 8 := BitVec.extractLsb'_append_eq_right
  change r.extractLsb' 104 32 ++ r.extractLsb' 72 32 ++ r.extractLsb' 40 32 ++ r.extractLsb' 8 32 ++
    (filler ++ r.extractLsb' 0 8).extractLsb' 0 8 = r
  rw [hlast, BitVec.extractLsb'_append_extractLsb'_eq_extractLsb' (show 104 = 72 + 32 from rfl),
    BitVec.extractLsb'_append_extractLsb'_eq_extractLsb' (show 72 = 40 + 32 from rfl),
    BitVec.extractLsb'_append_extractLsb'_eq_extractLsb' (show 40 = 8 + 32 from rfl),
    BitVec.extractLsb'_append_extractLsb'_eq_extractLsb' (show 8 = 0 + 8 from rfl), BitVec.extractLsb'_eq_self]

/-- Settles O42: the capture drains each word before the next is pushed, so the five fill the capture file in order. -/
theorem resp136EndsInCapture : Obligations.Resp136EndsInCapture := by
  unfold Obligations.Resp136EndsInCapture
  intro s marker payload crc e harmed hn hq
  refine ⟨_, s.draws + 1, pushAll_five _ _ _ _ _ harmed hn hq, ?_⟩
  exact rsp136OfCap_captureWords (packResp136 marker payload crc e) _

end Sys2Proof.Machine
end

section
/-! The endings that decode a response: the decoders case by case, and what CU_COMPLETE makes of their verdicts
(43_response_decoder.md sections 4 and 5). -/

namespace Sys2Proof.Machine

/-! ### The decoders, case by case (R186 to R188) -/

section Decoders

variable {cmd : BitVec 6} {r : BitVec 48}

theorem crc7Agrees_iff {bytes : List Byte} {received : Byte} :
    crc7Agrees bytes received = true ↔ crc7 bytes = received &&& 0xFE#8 := beq_iff_eq

theorem echoAgrees_iff : echoAgrees cmd r = true ↔ byte48 r 0 = cmd.setWidth 8 ∨ cmd = 41#6 := by
  simp [echoAgrees, Config.appCmdIndex]

theorem decodeR1_of_crc_ne (h : crc7 (rsp48Head r) ≠ byte48 r 5 &&& 0xFE#8) : decodeR1 cmd r = (.responseCrc, none) :=
  if_neg (mt crc7Agrees_iff.1 h)

theorem decodeR1_of_code_ne (h : crc7 (rsp48Head r) = byte48 r 5 &&& 0xFE#8) (hcode : byte48 r 0 ≠ cmd.setWidth 8)
    (hcmd : cmd ≠ 41#6) : decodeR1 cmd r = (.responseCode, none) := by
  rw [decodeR1, if_pos (crc7Agrees_iff.2 h), if_neg]
  rw [echoAgrees_iff]
  exact not_or.2 ⟨hcode, hcmd⟩

theorem decodeR1_of_agrees (h : crc7 (rsp48Head r) = byte48 r 5 &&& 0xFE#8)
    (hecho : byte48 r 0 = cmd.setWidth 8 ∨ cmd = 41#6) : decodeR1 cmd r = (.ok, some (decodeR3 r)) := by
  rw [decodeR1, if_pos (crc7Agrees_iff.2 h), if_pos (echoAgrees_iff.2 hecho)]
  rfl

variable {y : BitVec 136}

theorem decodeR2_of_crc_ne (h : crc7 (rsp136Payload y) ≠ byte136 y 16 &&& 0xFE#8) :
    decodeR2 y = (.responseCrc, respBufOfRsp136 y) := if_neg (mt crc7Agrees_iff.1 h)

theorem decodeR2_of_crc_eq (h : crc7 (rsp136Payload y) = byte136 y 16 &&& 0xFE#8) :
    decodeR2 y = (if byte136 y 0 = 0x3F#8 then .ok else .responseCode, respBufOfRsp136 y) := by
  rw [decodeR2, if_pos (crc7Agrees_iff.2 h)]
  by_cases hmarker : byte136 y 0 = 0x3F#8
  · rw [if_pos hmarker]; exact if_pos hmarker
  · rw [if_neg hmarker]; exact if_neg hmarker

/-- R188: the buffer is unpacked whatever the status. -/
theorem decodeR2_buffer (y : BitVec 136) : (decodeR2 y).2 = respBufOfRsp136 y := by
  by_cases h : crc7 (rsp136Payload y) = byte136 y 16 &&& 0xFE#8
  · rw [decodeR2_of_crc_eq h]
  · rw [decodeR2_of_crc_ne h]

end Decoders

/-! ### The ending of an R1 command -/

theorem completed_of_r1 {s : State} (h : s.cuShape = .r1) : completed s = completeR1 s := by simp [completed, h]

theorem completed_of_r2 {s : State} (h : s.cuShape = .r2) : completed s = completeR2 s := by simp [completed, h]

@[simp] theorem completeR1_cuStatus (s : State) : (completeR1 s).cuStatus = (decodeR1 s.cuCmd (rsp48AtHead s)).1 := rfl

theorem completeR1_cuResp32 {s : State} {st : Status} {w : Word} (h : decodeR1 s.cuCmd (rsp48AtHead s) = (st, some w)) :
    (completeR1 s).cuResp32 = w := by
  simp [completeR1, h]

theorem byte48_rsp48OfWords_zero (w0 w1 : Word) : byte48 (rsp48OfWords w0 w1) 0 = w0.extractLsb' 24 8 := by
  apply BitVec.eq_of_getLsbD_eq
  intro i hi
  simp only [byte48, rsp48OfWords, BitVec.getLsbD_extractLsb', BitVec.getLsbD_append]
  interval_cases i <;> simp

theorem byte48_rsp48OfWords_five (w0 w1 : Word) : byte48 (rsp48OfWords w0 w1) 5 = w1.extractLsb' 0 8 := by
  apply BitVec.eq_of_getLsbD_eq
  intro i hi
  simp only [byte48, rsp48OfWords, BitVec.getLsbD_extractLsb', BitVec.getLsbD_append]
  interval_cases i <;> simp

/-- Settles O47: the two words make the reply ready and the response; its CRC7, then its code, decide among the three
results of the decoder. -/
theorem completeR1Decodes : Obligations.CompleteR1Decodes := by
  unfold Obligations.CompleteR1Decodes
  intro s w0 w1 rest hwait hshape hq
  have hready : replyReady s = true := (replyReady_of_r1_or_r3 (.inl hshape)).2 (by simp [hq])
  have hstep : perform .cuComplete s = .next (completeR1 s) := by
    rw [perform_cuComplete, cuComplete_of_ready hwait hready, completed_of_r1 hshape]
  have hrsp : rsp48AtHead s = rsp48OfWords w0 w1 := rsp48AtHead_of_cons hq
  rw [show w0 ++ w1.extractLsb' 0 16 = rsp48OfWords w0 w1 from rfl, ← byte48_rsp48OfWords_five w0 w1,
    ← byte48_rsp48OfWords_zero w0 w1, ← decodeR3_rsp48OfWords w0 w1, ← hrsp]
  refine ⟨completeR1 s, hstep, endingKeeps_completeR1 s, rfl, ?popped, completeR1_seqPc s, completeR1_capArmed s,
    fun hcrc => ?crc, fun hcrc => ⟨fun hcode hcmd => ?code, fun hecho => ⟨?ok, ?payload⟩⟩⟩
  case popped => rw [completeR1_rxq, hq]; rfl
  case crc => rw [completeR1_cuStatus, decodeR1_of_crc_ne hcrc]
  case code => rw [completeR1_cuStatus, decodeR1_of_code_ne hcrc hcode hcmd]
  case ok => rw [completeR1_cuStatus, decodeR1_of_agrees hcrc hecho]
  case payload => exact completeR1_cuResp32 (decodeR1_of_agrees hcrc hecho)

/-! ### The ending of an R2 command -/

theorem completeR2_cuStatus (s : State) : (completeR2 s).cuStatus = (decodeR2 (rsp136OfCap s.cap)).1 := rfl

theorem completeR2_respBuf (s : State) : (completeR2 s).respBuf = respBufOfRsp136 (rsp136OfCap s.cap) :=
  decodeR2_buffer _

theorem respBufOfRsp136_getElem (y : BitVec 136) (k : Nat) (hk : k < 16) :
    (respBufOfRsp136 y)[k] = byte136 y (k + 1) := by
  interval_cases k <;> rfl

theorem respBufOfRsp136_take (y : BitVec 136) : (respBufOfRsp136 y).toList.take 15 = rsp136Payload y := rfl

/-- Settles O49: five captured words make the reply ready; the buffer holds the response's bytes whatever the decoder's
verdict, which the CRC7 over fifteen of them and then the marker decide. -/
theorem completeR2Decodes : Obligations.CompleteR2Decodes := by
  unfold Obligations.CompleteR2Decodes
  intro s hwait hshape hfive
  have hready : replyReady s = true := (replyReady_of_r2 hshape).2 hfive
  have hstep : perform .cuComplete s = .next (completeR2 s) := by
    rw [perform_cuComplete, cuComplete_of_ready hwait hready, completed_of_r2 hshape]
  refine ⟨completeR2 s, hstep, endingKeeps_completeR2 s, rfl, rfl, rfl, rfl, ?_⟩
  simp only [completeR2_respBuf, respBufOfRsp136_take, respBufOfRsp136_getElem, completeR2_cuStatus]
  refine ⟨fun _ _ => trivial, fun hcrc => ?crc, fun hcrc => ⟨fun hmarker => ?marker, fun hmarker => ?ok⟩⟩
  case crc => rw [decodeR2_of_crc_ne hcrc]
  case marker => rw [decodeR2_of_crc_eq hcrc]; exact if_neg hmarker
  case ok => rw [decodeR2_of_crc_eq hcrc]; exact if_pos hmarker

end Sys2Proof.Machine
end

section
/-! Whole commands: from the issue through the response to the ending (43_response_decoder.md sections 5 to 7), and the bound on
every wait (section 4). -/

namespace Sys2Proof.Machine

/-! ### Round trips -/

theorem andThen_of_next {r : Result} {s t : State} {f : State → Result} (hr : r = .next s) (hf : f s = .next t) :
    r.andThen f = .next t := Result.andThen_next.2 ⟨s, hr, hf⟩

/-- A received CRC byte, its end bit masked out, equals a checksum exactly where its seven CRC bits are the checksum's. -/
theorem eq_crcByte_masked_iff {x : Byte} (hx : x.getLsbD 0 = false) (crc : BitVec 7) (e : BitVec 1) :
    x = (crc ++ e) &&& 0xFE#8 ↔ crc = x.extractLsb' 1 7 := by
  constructor
  · intro h
    rw [h]
    ext i hi
    simp only [BitVec.getElem_extractLsb', BitVec.getLsbD_and, BitVec.getLsbD_append]
    interval_cases i <;> simp
  · rintro rfl
    have hx0 : x[0] = false := by simpa using hx
    apply BitVec.eq_of_getLsbD_eq
    intro i hi
    simp only [BitVec.getLsbD_and, BitVec.getLsbD_append, BitVec.getLsbD_extractLsb']
    interval_cases i <;> simp [hx0]

/-- The state right after the issue of a command whose two words are `w0` and `w1`. -/
def State.issued (s : State) (cmd : BitVec 6) (shape : Shape) (w0 w1 : Word) : State :=
  { s with
    rxq := [], txq := s.txq ++ [w0, w1], cuStart := s.nowMs, cuCmd := cmd, cuShape := shape, cuStatus := .ok,
    cuState := .wait, hostOut := .nothing }

theorem issueCommand_eq_issued {s : State} {cmd : BitVec 6} {arg : Word} {rbits : Nat} {shape : Shape}
    (hidle : s.cuState = .idle) (hroom : s.txq.length + 2 ≤ Config.txqDepth)
    (hbits : rbits = 0 ∨ rbits = 48 ∨ rbits = 136) :
    ∃ w0 w1, issueCommand cmd arg rbits shape s = .next (s.issued cmd shape w0 w1) := by
  obtain ⟨w0, w1, -, h⟩ := issueCommand_of_idle_of_room (cmd := cmd) (arg := arg) (shape := shape) hidle hroom hbits
  exact ⟨w0, w1, h⟩

section Resp48

variable (cmd : BitVec 6) (payload : Word) (crc : BitVec 7) (e : BitVec 1)

theorem rsp48Head_packResp48 :
    rsp48Head (packResp48 0#2 cmd payload crc e) = (0#2 ++ cmd) :: (commandHead cmd payload).tail := by
  simp only [rsp48Head, commandHead, List.tail_cons, List.cons.injEq, and_true]
  refine ⟨?_, ?_, ?_, ?_, ?_⟩ <;>
    · apply BitVec.eq_of_getLsbD_eq
      intro i hi
      simp only [byte48, packResp48, BitVec.getLsbD_extractLsb', BitVec.getLsbD_append]
      interval_cases i <;> simp

theorem packResp48_codeByte : byte48 (packResp48 0#2 cmd payload crc e) 0 = cmd.setWidth 8 := by
  apply BitVec.eq_of_getLsbD_eq
  intro i hi
  simp only [byte48, packResp48, BitVec.getLsbD_extractLsb', BitVec.getLsbD_append, BitVec.getLsbD_setWidth]
  interval_cases i <;> simp

theorem packResp48_crcByte : byte48 (packResp48 0#2 cmd payload crc e) 5 = crc ++ e := by
  apply BitVec.eq_of_getLsbD_eq
  intro i hi
  simp only [byte48, packResp48, BitVec.getLsbD_extractLsb', BitVec.getLsbD_append]
  interval_cases i <;> simp

end Resp48

/-- Settles O55: the issue empties `RXQ`, the response fills it with its two words, and the ending decodes those: the echo
agrees by construction, so the CRC7 alone decides. -/
theorem commandRoundTrip : Obligations.CommandRoundTrip := by
  unfold Obligations.CommandRoundTrip
  intro s cmd arg payload crc e hidle hroom
  obtain ⟨c0, c1, hissue⟩ := issueCommand_eq_issued (cmd := cmd) (arg := arg) (shape := .r1) hidle hroom (.inr (.inl rfl))
  obtain ⟨w0, w1, d, harrive, hwords⟩ := resp48ArrivesAsTwoWords (s.issued cmd .r1 c0 c1) 0 cmd payload crc e
    (show 0 + 2 ≤ 4 by decide)
  replace hwords : rsp48OfWords w0 w1 = packResp48 0#2 cmd payload crc e := hwords
  obtain ⟨t, hend, -, hstate, hrxq, -, -, hbad, hgood⟩ := completeR1Decodes
    { s.issued cmd .r1 c0 c1 with rxq := [w0, w1], draws := d } w0 w1 [] rfl rfl rfl
  refine ⟨t, andThen_of_next (execAll_pair_of_next hissue harrive) hend, hstate, hrxq, ?_⟩
  have hcode : w0.extractLsb' 24 8 = cmd.setWidth 8 := by
    rw [← byte48_rsp48OfWords_zero w0 w1, hwords, packResp48_codeByte]
  have hpayload : w0.extractLsb' 0 24 ++ w1.extractLsb' 8 8 = payload := by
    rw [← decodeR3_rsp48OfWords, hwords]
    exact packResp48_payload ..
  have hcrc : crc7 (rsp48Head (rsp48OfWords w0 w1)) = w1.extractLsb' 0 8 &&& 0xFE#8 ↔
      crc = (crc7 ((0#2 ++ cmd) :: (commandHead cmd payload).tail)).extractLsb' 1 7 := by
    rw [← byte48_rsp48OfWords_five w0 w1, hwords, rsp48Head_packResp48, packResp48_crcByte]
    exact eq_crcByte_masked_iff (crc7_bit0 _) crc e
  refine ⟨fun h => ?ok, fun h => hbad (mt hcrc.1 h)⟩
  obtain ⟨hok, hresp⟩ := (hgood (hcrc.2 h)).2 (.inl hcode)
  exact ⟨hok, hresp.trans hpayload⟩

/-- Settles O56: the issue arms and empties the capture, the response fills it, and the ending unpacks and checks it. -/
theorem registerReadRoundTrip : Obligations.RegisterReadRoundTrip := by
  unfold Obligations.RegisterReadRoundTrip
  intro s cmd arg marker payload crc e hidle hroom
  obtain ⟨c0, c1, hissue⟩ := issueCommand_eq_issued (s := { s with capN := 0, capArmed := true }) (cmd := cmd) (arg := arg)
    (shape := .r2) hidle hroom (.inr (.inr rfl))
  obtain ⟨cap, d, harrive, hcap⟩ := resp136EndsInCapture ({ s with capN := 0, capArmed := true }.issued cmd .r2 c0 c1)
    marker payload crc e rfl rfl rfl
  replace hcap : rsp136OfCap cap = packResp136 marker payload crc e := hcap
  obtain ⟨t, hend, -, hstate, -, -, hoff, hbytes, hbad, hgood⟩ := completeR2Decodes
    { { s with capN := 0, capArmed := true }.issued cmd .r2 c0 c1 with cap := cap, capN := 5, draws := d } rfl rfl rfl
  refine ⟨t, andThen_of_next (execAll_pair_of_next hissue harrive) hend, hstate, hoff, ?_⟩
  simp only [hcap] at hbytes hgood
  have hpayload (k : Nat) (hk : k < 15) : t.respBuf[k] = payload.extractLsb' (112 - 8 * k) 8 := by
    rw [hbytes k (by omega), packResp136_payloadByte _ _ _ _ k hk]
  have hlast : t.respBuf[15] = crc ++ e := by
    rw [hbytes 15 (by decide), packResp136_lastByte]
  have htake : t.respBuf.toList.take 15 = (List.range 15).map fun k => payload.extractLsb' (112 - 8 * k) 8 := by
    apply List.ext_getElem
    · simp
    · intro k hk _
      have hk15 : k < 15 := by simp at hk; omega
      simpa using hpayload k hk15
  rw [packResp136_markerByte, htake, hlast, eq_crcByte_masked_iff (crc7_bit0 _)] at hgood
  rw [htake, hlast, Ne, eq_crcByte_masked_iff (crc7_bit0 _)] at hbad
  refine ⟨hpayload, hlast, ?_⟩
  constructor
  · intro hok
    have hcrc := by_contra fun h => nomatch hok.symm.trans (hbad h)
    have hmarker := by_contra fun h => nomatch hok.symm.trans ((hgood hcrc).1 h)
    exact ⟨hcrc, hmarker⟩
  · rintro ⟨hcrc, hmarker⟩
    exact (hgood hcrc).2 hmarker

/-! ### Every wait ends (R185, R297) -/

/-- Within `n` steps the machine is in `CU_IDLE`. -/
def EndsWithin (n : Nat) (s : State) : Prop :=
  ∃ k ≤ n, ∃ t, Host.Core.run Sys2Proof.core k s = .next t ∧ t.cuState = .idle

theorem EndsWithin.mono {n m : Nat} {s : State} (h : EndsWithin n s) (hnm : n ≤ m) : EndsWithin m s := by
  obtain ⟨k, hk, ht⟩ := h
  exact ⟨k, hk.trans hnm, ht⟩

theorem run_succ_of_step (M : Host.Core) {k : Nat} {s t : M.State} (h : M.step s = .next t) :
    M.run (k + 1) s = M.run k t := by
  rw [Host.Core.run, h]

theorem endsWithin_succ_of_step {n : Nat} {s t : State} (hstep : step s = .next t) (h : EndsWithin n t) :
    EndsWithin (n + 1) s := by
  obtain ⟨k, hk, u, hrun, hu⟩ := h
  exact ⟨k + 1, Nat.succ_le_succ hk, u, (run_succ_of_step Sys2Proof.core hstep).trans hrun, hu⟩

theorem endsWithin_one_of_step {s t : State} (hstep : step s = .next t) (ht : t.cuState = .idle) : EndsWithin 1 s :=
  endsWithin_succ_of_step (n := 0) hstep ⟨0, le_refl 0, t, rfl, ht⟩

section Wait

variable {s : State}

theorem endsWithin_of_ready (hwait : s.cuState = .wait) (hp : s.pending = []) (hready : replyReady s = true) :
    EndsWithin 1 s := by
  have henabled : completeEnabled s = true := completeEnabled_iff.2 ⟨hwait, hready⟩
  refine endsWithin_one_of_step (t := completed s) ?_ completed_cuState
  rw [step_of_pending_nil hp, ownTurn, henabled, cond_true, cuComplete_of_ready hwait hready]

theorem endsWithin_of_late (hwait : s.cuState = .wait) (hp : s.pending = []) (hready : replyReady s = false)
    (hlate : deadlinePassed s = true) : EndsWithin 1 s := by
  have hcomplete : completeEnabled s = false := by simp [completeEnabled, hready]
  have htimeout : timeoutEnabled s = true := timeoutEnabled_iff.2 ⟨hwait, hready, hlate⟩
  refine endsWithin_one_of_step (t := recoverFromTimeout s) ?_ rfl
  rw [step_of_pending_nil hp, ownTurn, hcomplete, htimeout, cond_false, cond_true]
  exact cuTimeout_next.2 ⟨htimeout, rfl⟩

/-- Where no closing step is enabled CAPTURE has its turn, and else the clock ticks. -/
theorem step_of_noClosingStep (hp : s.pending = []) (hready : replyReady s = false) (hlate : deadlinePassed s = false) :
    step s = bif captureEnabled s then .next (captureWord s) else .next { s with nowMs := s.nowMs + 1 } := by
  have hcomplete : completeEnabled s = false := by simp [completeEnabled, hready]
  have htimeout : timeoutEnabled s = false := by simp [timeoutEnabled, hlate]
  rw [step_of_pending_nil hp, ownTurn, hcomplete, htimeout, cond_false, cond_false]
  cases hcapture : captureEnabled s with
  | false => rfl
  | true => exact capMove_next.2 ⟨hcapture, rfl⟩

/-- One turn: a closing step ends the wait, and else what follows is the rest of it. -/
theorem endsWithin_of_turn {n : Nat} (hwait : s.cuState = .wait) (hp : s.pending = [])
    (hcaptures : captureEnabled s = true → replyReady s = false → EndsWithin n (captureWord s))
    (hticks : captureEnabled s = false → deadlinePassed s = false → EndsWithin n { s with nowMs := s.nowMs + 1 }) :
    EndsWithin (n + 1) s := by
  cases hready : replyReady s with
  | true => exact (endsWithin_of_ready hwait hp hready).mono (by omega)
  | false =>
    cases hlate : deadlinePassed s with
    | true => exact (endsWithin_of_late hwait hp hready hlate).mono (by omega)
    | false =>
      have hstep := step_of_noClosingStep hp hready hlate
      cases hcapture : captureEnabled s with
      | true =>
        rw [hcapture, cond_true] at hstep
        exact endsWithin_succ_of_step hstep (hcaptures hcapture hready)
      | false =>
        rw [hcapture, cond_false] at hstep
        exact endsWithin_succ_of_step hstep (hticks hcapture hlate)

/-- A tick is counted where the count has not yet passed the deadline. -/
theorem elapsed_tick (hlate : deadlinePassed s = false) :
    (elapsed { s with nowMs := s.nowMs + 1 }).toNat = (elapsed s).toNat + 1 := by
  have hle : ¬ 2 < (elapsed s).toNat := mt deadlinePassed_iff.2 (by simp [hlate])
  have hadd : elapsed { s with nowMs := s.nowMs + 1 } = elapsed s + 1 := by
    simp only [elapsed, BitVec.sub_eq_add_neg]
    ac_rfl
  rw [hadd, BitVec.toNat_add]
  change ((elapsed s).toNat + 1) % 4294967296 = _
  omega

/-- With nothing to capture the ticks alone reach the deadline. -/
theorem endsWithin_of_ticks (k : Nat) (hwait : s.cuState = .wait) (hp : s.pending = [])
    (hcapture : captureEnabled s = false) (hk : 3 ≤ (elapsed s).toNat + k) : EndsWithin (k + 1) s := by
  induction k generalizing s with
  | zero =>
    refine endsWithin_of_turn hwait hp (fun h _ => absurd (h.symm.trans hcapture) (by decide)) fun _ hlate => ?_
    rw [deadlinePassed_iff.2 (by omega)] at hlate
    cases hlate
  | succ k ih =>
    refine endsWithin_of_turn hwait hp (fun h _ => absurd (h.symm.trans hcapture) (by decide)) fun _ hlate => ?_
    refine ih hwait hp hcapture ?_
    rw [elapsed_tick hlate]
    omega

theorem captureWord_capN_toNat (hn : s.capN.toNat < 5) : (captureWord s).capN.toNat = s.capN.toNat + 1 := by
  rw [captureWord_capN, BitVec.toNat_add]
  change (s.capN.toNat + 1) % 8 = _
  omega

/-- At most `c` words are captured before the fifth of an R2 response, or before `RXQ` is empty; the word that completes an R2
response is followed by its ending, and an empty queue by at most three ticks and the timeout. -/
theorem endsWithin_of_captures (c : Nat) (hwait : s.cuState = .wait) (hp : s.pending = [])
    (hc : s.rxq.length ≤ c ∨ s.cuShape = .r2 ∧ 4 ≤ s.capN.toNat + c) : EndsWithin (c + 4) s := by
  induction c generalizing s with
  | zero =>
    cases hcapture : captureEnabled s with
    | false => exact endsWithin_of_ticks 3 hwait hp hcapture (by omega)
    | true =>
      obtain ⟨-, hn, hlen⟩ := captureEnabled_iff.1 hcapture
      obtain ⟨hshape, h4⟩ := hc.resolve_left (by omega)
      have hfive : (captureWord s).capN = 5 :=
        BitVec.eq_of_toNat_eq (by rw [captureWord_capN_toNat hn]; change _ = 5; omega)
      have hready : replyReady (captureWord s) = true :=
        (replyReady_of_r2 (s := captureWord s) hshape).2 hfive
      refine endsWithin_of_turn (n := 3) hwait hp (fun _ _ => ?_) (fun h => absurd (hcapture.symm.trans h) (by decide))
      exact (endsWithin_of_ready (s := captureWord s) hwait hp hready).mono (by decide)
  | succ c ih =>
    cases hcapture : captureEnabled s with
    | false => exact (endsWithin_of_ticks 3 hwait hp hcapture (by omega)).mono (by omega)
    | true =>
      obtain ⟨-, hn, hlen⟩ := captureEnabled_iff.1 hcapture
      have hrest : (captureWord s).rxq.length ≤ c ∨ s.cuShape = .r2 ∧ 4 ≤ (captureWord s).capN.toNat + c := by
        rw [captureWord_capN_toNat hn, captureWord_rxq, List.length_drop]
        rcases hc with hq | ⟨hshape, h4⟩
        · exact .inl (by omega)
        · exact .inr ⟨hshape, by omega⟩
      refine (endsWithin_of_turn (n := c + 4) hwait hp (fun _ _ => ?_)
        (fun h => absurd (hcapture.symm.trans h) (by decide))).mono (by omega)
      exact ih (s := captureWord s) hwait hp hrest

end Wait

/-- Settles O57: an R2 response captures at most four words before the fifth; every other shape waits for at most one word more
than it has. -/
theorem everyWaitEnds : Obligations.EveryWaitEnds := by
  unfold Obligations.EveryWaitEnds
  intro s hwait hp
  refine (?_ : EndsWithin 8 s)
  cases hready : replyReady s with
  | true => exact (endsWithin_of_ready hwait hp hready).mono (by decide)
  | false =>
    refine endsWithin_of_captures 4 hwait hp ?_
    cases hshape : s.cuShape with
    | r2 => exact .inr ⟨rfl, by omega⟩
    | none =>
      have := mt (replyReady_of_none hshape).2 (by simp [hready])
      exact .inl (by omega)
    | r1 =>
      have := mt (replyReady_of_r1_or_r3 (.inl hshape)).2 (by simp [hready])
      exact .inl (by omega)
    | r3 =>
      have := mt (replyReady_of_r1_or_r3 (.inr hshape)).2 (by simp [hready])
      exact .inl (by omega)

end Sys2Proof.Machine
end
